-- ==== Sys2Proof/Word.lean ====
section
/-! DEFINITION. The word types of the JS-2408 and their plainest arithmetic. -/

namespace Sys2Proof

/-- One byte of the link (R141). -/
abbrev Byte := BitVec 8

/-- A 16-bit field or counter. -/
abbrev Half := BitVec 16

/-- A point or a distance on one of the two bases, 32 bits (00_scope.md section 6). -/
abbrev Word := BitVec 32

/-- The next value of a 16-bit counter that stops at 65535 (R153, R165, R120). -/
def Half.satSucc (h : Half) : Half := if h = 65535 then h else h + 1

/-- The sum of two 16-bit counts, stopping at 65535 (R166). -/
def Half.satAdd (a b : Half) : Half := if 65535 ≤ a.toNat + b.toNat then 65535 else a + b

end Sys2Proof
end

