-- ==== Sys2Proof/Config.lean ====
section
/-! DEFINITION. The capacities and limits of the JS-2408 (00_scope.md section 1 and the rules named
beside each), and the free values of the model. -/

namespace Sys2Proof.Config

/-- Step slots of the pool (R4). -/
def stepSlots : Nat := 512
/-- Steps one program may hold (R1, R8). -/
def stepsPerProgram : Nat := 64
/-- Firing entries one queue may hold (R51). -/
def firingQueueSize : Nat := 16
/-- Entries the capture log may hold (R119). -/
def captureLogSize : Nat := 64
/-- Reports the report queue may hold (R164). -/
def reportQueueSize : Nat := 32
/-- Reports that may be sent and unacknowledged (R164, R168). -/
def reportWindow : Nat := 8
/-- Free slots an ordinary report needs (R165). -/
def ordinaryRoom : Nat := 3
/-- Requests the request queue may hold (R145). -/
def requestQueueSize : Nat := 4
/-- Replies the reply queue may hold (R148). -/
def replyQueueSize : Nat := 4
/-- Entries the reply cache may hold (R149). -/
def replyCacheSize : Nat := 8
/-- The schedule horizon in ticks (R87). -/
def horizon : Nat := 1073741824
/-- The largest delay of a binding (R20, R73). -/
def maxDelay : Nat := 16777215
/-- Where the elapsed count of a measurement stops (R110). -/
def measureLimit : Nat := 16777216
/-- Where the quiet time stops (R88). -/
def quietLimit : Nat := 4294967295999
/-- The longest inter-byte gap inside a frame, in microseconds (R143). -/
def gapLimit : Nat := 2000
/-- The value of the time base when start-up ends (R86, R155). -/
def startUpTicks : Nat := 5000
/-- One character on RXD, ten bit times, in millionths of a bit time (R140; log 32). -/
def characterTime : Nat := 10000000
/-- The fixed filter of CUTOFF_N (R128). -/
def cutoffFilter : Nat := 4
/-- The shortest LOW pulse on RESET_N that resets the part, in microseconds (R155). -/
def resetPulse : Nat := 10

/-- FREE VALUE (log 8, log 9): the outcome of the n-th choice the spec leaves open between two
effects of one event. -/
opaque freeBit : Nat → Bool

/-- FREE VALUE (log 10): the n-th point the spec does not state. -/
opaque freeWord : Nat → Word

end Sys2Proof.Config
end

