-- ==== Sys2Proof/Syntax.lean ====
section
/-! DEFINITION. The commands of the JS-2408: one constructor of `Instr` for each row of
spec/opcode_table.json, with the operands that come from outside the part's own state. -/

namespace Sys2Proof

/-- A line level (00_scope.md section 6). -/
inductive Level where
  | low
  | high
  deriving DecidableEq, Repr

/-- The levels on the input pins at one tick of the time base: LINE, CUTOFF_N and CAP0 to CAP3
(00_scope.md section 3, R86). -/
structure Pins where
  line : Level
  cutoffN : Level
  cap : Vector Level 4
  deriving DecidableEq, Repr

/-- What causes a hard reset (R155): power-on, or RESET_N held LOW for a number of microseconds. -/
inductive ResetCause where
  | powerOn
  | resetN (lowMicroseconds : Nat)
  deriving DecidableEq, Repr

/-- The commands. A request row (`ident` to `reject`) executes the request at the head of the
request queue, whose fields are that request's payload (R145, R146; log 1). The other rows name a
happening of the block that owns it; an operand is a byte on RXD, a level on a pin, an input
number or a channel number. -/
inductive Instr where
  | ident
  | status
  | openSession
  | closeSession
  | ackReports
  | restart
  | cutoff
  | cutoffRelease
  | setChannelOptions
  | defineProgram
  | appendSteps
  | sealProgram
  | discardProgram
  | deleteProgram
  | programInfo
  | programRead
  | bind
  | enable
  | stop
  | halt
  | fire
  | channelStatus
  | timebaseConfig
  | setLine
  | readTime
  | captureConfig
  | routeAdd
  | routeRemove
  | routeList
  | readCaptures
  | captureStream
  | reject
  | frameComplete (byte : Byte)
  | invalidLenByte (byte : Byte)
  | interByteGapTimeout
  | transmissionEnd
  | hardReset (cause : ResetCause) (baud1 baud0 : Level)
  | startUpEnd
  | lineRise
  | lineFall
  | lineStallDetected
  | captureEdge (input : Fin 4)
  | cutoffNAssertion
  | cutoffNDeassertion
  | silenceExpiry
  | resendExpiry
  | headEntryDue (channel : Fin 8)
  | stepEnd (channel : Fin 8)
  | holdUntilTimeout (channel : Fin 8)
  | holdUntilEdge (channel : Fin 8)
  | routeTrigger (channel : Fin 8)
  | stallNotice (channel : Fin 8)
  | linePresetTaken (channel : Fin 8)
  | entryOverdueDiscard (channel : Fin 8)
  | receivedByte (byte : Byte)
  | timeBaseTick (pins : Pins)
  deriving DecidableEq, Repr

end Sys2Proof
end

