-- ==== Sys2Proof/Machine/State.lean ====
section
/-! DEFINITION. The state of the JS-2408, block by block, and its value right after hard reset. -/

namespace Sys2Proof.Machine

/-! ## Programs (chapter 1) -/

/-- The kind of an accepted edge (R104). -/
inductive Edge where
  | rise
  | fall
  deriving DecidableEq, Repr

/-- The level a program step names (R2). -/
inductive StepLevel where
  | low
  | high
  | idle
  | active
  deriving DecidableEq, Repr

/-- The kind of a program step; a HOLD_UNTIL step also holds an input and an edge (R2). -/
inductive StepKind where
  | drive
  | holdUntil (input : Fin 4) (edge : Edge)
  deriving DecidableEq, Repr

/-- A step record (R2). -/
structure ProgStep where
  kind : StepKind
  level : StepLevel
  duration : BitVec 24
  deriving DecidableEq, Repr

/-- The state of a program record (R1). -/
inductive ProgState where
  | empty
  | opened
  | sealed
  deriving DecidableEq, Repr

/-- A program record (R1); its step count is the length of `steps`. -/
structure Program where
  state : ProgState
  steps : List ProgStep
  loopStart : Nat
  loopCount : Half
  useCount : Nat
  deriving DecidableEq, Repr

/-- The values of an EMPTY record (R1). -/
def Program.none : Program :=
  { state := .empty, steps := [], loopStart := 0, loopCount := 0, useCount := 0 }

/-- The program store: the table of ids 1 to 32 (id n at place n - 1) and the number of free step
slots (R1, R4; log 12). -/
structure Store where
  programs : Vector Program 32
  freeSlots : Nat
  deriving DecidableEq, Repr

/-! ## Channels (chapters 2 to 4) -/

/-- The base a binding names (R20). -/
inductive Base where
  | time
  | line
  deriving DecidableEq, Repr

/-- The mode of a binding (R20). -/
inductive Mode where
  | triggered
  | continuous
  deriving DecidableEq, Repr

/-- The overlap policy of a binding (R20, R60). -/
inductive Overlap where
  | defer
  | drop
  deriving DecidableEq, Repr

/-- The stall action of a binding (R20, R39 to R41). -/
inductive StallAction where
  | hold
  | abort
  deriving DecidableEq, Repr

/-- A binding record (R20); `program` is the program id less 1. -/
structure Binding where
  program : Fin 32
  base : Base
  mode : Mode
  idle : Level
  delay : BitVec 24
  overlap : Overlap
  lateLimit : Half
  stall : StallAction
  deriving DecidableEq, Repr

/-- Who asked for a firing (R49). -/
inductive Source where
  | route (id : Fin 16) (input : Fin 4) (edge : Edge)
  | host (tag : Half)
  deriving DecidableEq, Repr

/-- A firing entry (R49). -/
structure Entry where
  number : Half
  source : Source
  trigger : Word
  due : Word
  deriving DecidableEq, Repr

/-- What an armed HOLD_UNTIL step watches (R29, R36). -/
structure Watch where
  input : Fin 4
  edge : Edge
  deriving DecidableEq, Repr

/-- The firing in progress (R29). `entry` and `lateness` are absent for a CONTINUOUS pass. -/
structure Firing where
  entry : Option Entry
  lateness : Option Word
  start : Word
  stepIndex : Nat
  stepStart : Word
  stepEnd : Word
  loopRuns : Half
  watch : Option Watch
  deriving DecidableEq, Repr

/-- The states of a channel (R21). -/
inductive ChanState where
  | off
  | ready
  | running
  | draining
  | forced
  deriving DecidableEq, Repr

/-- The stamps of an accepted edge (R105): the time base, the line base, and the presets made
before it. `offset` is the model's form of those presets, the sum of their offsets (log 6). -/
structure Stamp where
  time : Word
  line : Word
  mark : Half
  offset : Word
  deriving DecidableEq, Repr

/-- A route trigger delivered to a channel and not yet taken (R117). -/
structure Trigger where
  route : Fin 16
  input : Fin 4
  edge : Edge
  stamp : Stamp
  deriving DecidableEq, Repr

/-- An accepted edge offered to a channel's watch and not yet taken (R118). -/
structure Offer where
  input : Fin 4
  edge : Edge
  stamp : Stamp
  deriving DecidableEq, Repr

/-- A channel record (R19), with the happenings handed to the channel and not yet taken by it
(`triggers`, `offers`, `stallNotices`, `presets`: log 5) and the sum of the preset offsets it has
taken (`coords`: log 6). -/
structure Channel where
  state : ChanState
  active : Option Binding
  pending : Option Binding
  queue : List Entry
  firing : Option Firing
  output : Level
  member : Bool
  safeLevel : Level
  accepted : Half
  completed : Half
  aborted : Half
  missed : Half
  nextNumber : Half
  presetsTaken : Half
  coords : Word
  triggers : List Trigger
  offers : List Offer
  stallNotices : Nat
  presets : List Word
  deriving DecidableEq, Repr

/-- The channel record after hard reset and after RESTART (R19, R47, R48). -/
def Channel.init : Channel :=
  { state := .off, active := none, pending := none, queue := [], firing := none, output := .low,
    member := true, safeLevel := .low, accepted := 0, completed := 0, aborted := 0, missed := 0,
    nextNumber := 0, presetsTaken := 0, coords := 0, triggers := [], offers := [],
    stallNotices := 0, presets := [] }

/-! ## Timebases (chapter 5) -/

/-- A change on a filtered input: the new level and the consecutive samples at it (R89). -/
structure Candidate where
  level : Level
  count : Nat
  deriving DecidableEq, Repr

/-- The states of the line (R88). -/
inductive LineState where
  | waiting
  | moving
  | stalled
  deriving DecidableEq, Repr

/-- The line fields of the timebase unit (R88). `offsetSum` is the sum of the offsets of the
presets made (log 6). -/
structure LineUnit where
  lineBase : Word
  lineState : LineState
  filter : BitVec 4
  stallLimit : Half
  level : Level
  candidate : Option Candidate
  lastEdge : Option Word
  period : Option Word
  freshEdges : Nat
  quiet : Option Nat
  presetsMade : Half
  offsetSum : Word
  deriving DecidableEq, Repr

/-- The line fields after hard reset (R88, R101). The level of LINE is taken at the end of
start-up; LOW before that is the model's choice (DESIGN CHOICE, log 18). -/
def LineUnit.init : LineUnit :=
  { lineBase := 0, lineState := .waiting, filter := 0, stallLimit := 0, level := .low,
    candidate := none, lastEdge := none, period := none, freshEdges := 0, quiet := none,
    presetsMade := 0, offsetSum := 0 }

/-! ## Capture (chapter 6) -/

/-- The modes of a capture input (R103). -/
inductive CapMode where
  | off
  | edges
  | widthHigh
  | widthLow
  | periodRise
  | periodFall
  deriving DecidableEq, Repr

/-- The log edges setting (R103). -/
inductive LogEdges where
  | rise
  | fall
  | both
  | none
  deriving DecidableEq, Repr

/-- An open measurement: the point of its opening edge and its elapsed count (R103, R110). -/
structure Measure where
  start : Word
  elapsed : Nat
  deriving DecidableEq, Repr

/-- An input record (R103). -/
structure CapInput where
  mode : CapMode
  logEdges : LogEdges
  filter : BitVec 4
  level : Option Level
  candidate : Option Candidate
  measure : Option Measure
  deriving DecidableEq, Repr

/-- An input after hard reset and RESTART (R103). -/
def CapInput.init : CapInput :=
  { mode := .off, logEdges := .both, filter := 0, level := none, candidate := none,
    measure := none }

/-- The edge a route matches (R113). -/
inductive RouteEdge where
  | rise
  | fall
  | both
  deriving DecidableEq, Repr

/-- A route record (R113). -/
structure Route where
  input : Fin 4
  edge : RouteEdge
  channel : Fin 8
  deriving DecidableEq, Repr

/-- The kinds of a capture entry (R119). -/
inductive CapKind where
  | rise
  | fall
  | widthHigh
  | widthLow
  | period
  | gap
  deriving DecidableEq, Repr

/-- A capture entry (R119). -/
structure CapEntry where
  number : Half
  input : Fin 4
  kind : CapKind
  time : Word
  line : Word
  value : BitVec 24
  saturated : Bool
  deriving DecidableEq, Repr

/-- The capture unit: inputs, route table, log and streaming flag (R103, R113, R119, R122). -/
structure Capture where
  inputs : Vector CapInput 4
  routes : Vector (Option Route) 16
  log : List CapEntry
  nextNumber : Half
  dropCount : Half
  lastDropped : Option (Fin 4)
  streaming : Bool
  deriving DecidableEq, Repr

/-- The capture unit after hard reset and RESTART (R126). -/
def Capture.init : Capture :=
  { inputs := Vector.replicate 4 CapInput.init, routes := Vector.replicate 16 Option.none,
    log := [], nextNumber := 0, dropCount := 0, lastDropped := Option.none, streaming := false }

/-! ## Cutoff (chapter 7) -/

/-- The cutoff latch (R127). -/
inductive Latch where
  | clear
  | tripped
  deriving DecidableEq, Repr

/-- What trips the latch (R127). -/
inductive CutoffCause where
  | pin
  | request
  | silence
  deriving DecidableEq, Repr

/-- A set of cutoff causes (R127). -/
structure CauseSet where
  pin : Bool
  request : Bool
  silence : Bool
  deriving DecidableEq, Repr

/-- The empty cause set. -/
def CauseSet.empty : CauseSet := { pin := false, request := false, silence := false }

/-- The cutoff unit: the latch, its causes and the filtered state of CUTOFF_N (R127, R128). -/
structure Cutoff where
  latch : Latch
  causes : CauseSet
  level : Level
  candidate : Option Candidate
  deriving DecidableEq, Repr

/-- The cutoff unit after hard reset (R127, R139). The level of CUTOFF_N is taken at the end of
start-up; HIGH, not asserted, before that is the model's choice (DESIGN CHOICE, log 18). -/
def Cutoff.init : Cutoff :=
  { latch := .clear, causes := CauseSet.empty, level := .high, candidate := none }

/-! ## The host link (chapter 8) -/

/-- The four link rates (R140). -/
inductive LinkRate where
  | r115200
  | r460800
  | r1000000
  | r3000000
  deriving DecidableEq, Repr

/-- A frame of the part less its SYNC, LEN and CRC, which follow from it (R141). -/
structure Frame where
  kind : Byte
  tag : Byte
  payload : List Byte
  deriving DecidableEq, Repr

/-- A request of the request queue (R145). -/
structure Request where
  kind : Byte
  tag : Byte
  payload : List Byte
  crc : Half
  deriving DecidableEq, Repr

/-- An entry of the reply cache (R149). -/
structure CacheEntry where
  tag : Byte
  crc : Half
  reply : Frame
  deriving DecidableEq, Repr

/-- The receive framer (R142) with the bytes of the frame it holds; `point` is the value of the
time base at the last byte kept, from which the gap is timed (R143). `kept` are the bytes from
KIND on, oldest first, and `crcLow` the first CRC byte. -/
inductive Framer where
  | hunt
  | length (point : Word)
  | body (len : Byte) (kept : List Byte) (point : Word)
  | check (len : Byte) (kept : List Byte) (crcLow : Option Byte) (point : Word)
  deriving DecidableEq, Repr

/-- The transmitter (R152). `left` is the time the frame still occupies TXD, in millionths of a bit
time: each microsecond takes off as many as the rate has bits a second (log 16). -/
inductive Transmitter where
  | idle
  | sending (frame : Frame) (left : Int)
  deriving DecidableEq, Repr

/-- The link interface (chapter 8, its first table). `listened` is the model's own form of when the
receiver began (R155): the time since the end of start-up in millionths of a bit time, up to one
character (log 32). -/
structure Link where
  rate : LinkRate
  framer : Framer
  listened : Nat
  requestQueue : List Request
  replyQueue : List Frame
  cache : List CacheEntry
  transmitter : Transmitter
  crcErrors : Half
  frameErrors : Half
  overruns : Half
  restartPending : Bool
  deriving DecidableEq, Repr

/-- The link interface at the release of hard reset with a given strapped rate (R155). -/
def Link.init (rate : LinkRate) : Link :=
  { rate := rate, framer := .hunt, listened := 0, requestQueue := [], replyQueue := [], cache := [],
    transmitter := .idle, crcErrors := 0, frameErrors := 0, overruns := 0,
    restartPending := false }

/-! ## Sessions and reports (chapter 9) -/

/-- How a firing ended (R42). -/
inductive FiringOutcome where
  | complete
  | abortedHalt
  | abortedCutoff
  | abortedStall
  deriving DecidableEq, Repr

/-- Why a trigger or an entry did not become a firing (R71). -/
inductive MissedCause where
  | queueFull
  | busy
  | late
  | stopping
  | mode
  | halted
  | cutoff
  deriving DecidableEq, Repr

/-- Why a channel left service by itself (R44). -/
inductive OffCause where
  | drained
  | stall
  deriving DecidableEq, Repr

/-- The fields of FIRING_END (R42). -/
structure FiringEndReport where
  channel : Fin 8
  number : Half
  source : Source
  trigger : Word
  due : Word
  start : Word
  lateness : Word
  endPoint : Word
  outcome : FiringOutcome
  deriving DecidableEq, Repr

/-- The fields of MISSED (R71). -/
structure MissedReport where
  channel : Fin 8
  cause : MissedCause
  count : Half
  number : Option Half
  source : Source
  trigger : Word
  due : Option Word
  deriving DecidableEq, Repr

/-- The six lost counts (R158, R167). -/
structure LostCounts where
  firing : Half
  missed : Half
  step : Half
  channel : Half
  line : Half
  urgent : Half
  deriving DecidableEq, Repr

/-- Lost counts of 0. -/
def LostCounts.zero : LostCounts :=
  { firing := 0, missed := 0, step := 0, channel := 0, line := 0, urgent := 0 }

/-- The kind and payload of a report (R163, section 10.6). -/
inductive ReportBody where
  | firingEnd (r : FiringEndReport)
  | missed (r : MissedReport)
  | stepTimeout (channel : Fin 8) (number : Option Half) (step : Nat)
  | channelOff (channel : Fin 8) (cause : OffCause)
  | bindingApplied (channel : Fin 8) (program : Fin 32)
  | lineStall (lineValue lastEdge : Word)
  | lineResumed (milliseconds : Word)
  | capture (entry : CapEntry)
  | cutoffTripped (causes : CauseSet) (forced : Byte)
  | cutoffReleased (released : Byte)
  | reportsLost (counts : LostCounts)
  deriving DecidableEq, Repr

/-- The states of a queued report (R163). -/
inductive ReportState where
  | new
  | sent
  | resend
  deriving DecidableEq, Repr

/-- A report record (R163). -/
structure Report where
  sequence : Half
  body : ReportBody
  session : Byte
  state : ReportState
  deriving DecidableEq, Repr

/-- The report mask (R158). -/
structure ReportMask where
  firing : Bool
  missed : Bool
  step : Bool
  channel : Bool
  line : Bool
  deriving DecidableEq, Repr

/-- The session state (R158). -/
inductive SessionState where
  | closed
  | opened
  deriving DecidableEq, Repr

/-- Why the last session closed (R158). -/
inductive CloseCause where
  | none
  | request
  | reopen
  | silence
  | restart
  deriving DecidableEq, Repr

/-- The session and report unit (R158); a timer is its expiry point, or absent when stopped. -/
structure Session where
  state : SessionState
  number : Byte
  lastClose : CloseCause
  silenceTimeout : Option Half
  resendTime : Option Half
  mask : Option ReportMask
  silenceTimer : Option Word
  resendTimer : Option Word
  reports : List Report
  nextSequence : Half
  lost : LostCounts
  deriving DecidableEq, Repr

/-- The session and report unit after hard reset (R158). -/
def Session.init : Session :=
  { state := .closed, number := 0, lastClose := .none, silenceTimeout := Option.none,
    resendTime := Option.none, mask := Option.none, silenceTimer := Option.none,
    resendTimer := Option.none, reports := [], nextSequence := 1, lost := LostCounts.zero }

/-! ## The whole part -/

/-- The state of the part: the time base, the blocks, whether start-up is in progress, the levels
last sampled on the input pins, and the model's own two fields: how many free values have been used
(log 25) and the commands waiting (log 1, log 3). -/
structure State where
  timeBase : Word
  line : LineUnit
  store : Store
  channels : Vector Channel 8
  capture : Capture
  cutoff : Cutoff
  link : Link
  session : Session
  startUp : Bool
  pins : Pins
  freeCount : Nat
  pending : List Instr
  deriving DecidableEq, Repr

/-- The spec describes no fault that stops the part: a damaged frame is counted (R153) and a bad
request is answered with a result code (section 10.2). So there is no reason to fault. -/
inductive Fault where
  deriving DecidableEq, Repr

/-- Why the model would not run a command. -/
inductive Refusal where
  /-- An arm of `exec` without a meaning, by the row's mnemonic. Raised by no arm; safe. -/
  | notModelled (mnemonic : String)
  deriving DecidableEq, Repr

/-- Input levels before anything drives the pins: LINE and CAP0 to CAP3 LOW, CUTOFF_N HIGH
(DESIGN CHOICE, log 18). -/
def Pins.init : Pins :=
  { line := .low, cutoffN := .high, cap := Vector.replicate 4 Level.low }

/-- The program store after hard reset (R18). -/
def Store.init : Store :=
  { programs := Vector.replicate 32 Program.none, freeSlots := Config.stepSlots }

/-- The part at the release of hard reset (R18, R47, R86, R88, R101, R103, R126, R139, R155, R158),
start-up just begun. The strapped rate is the model's choice (DESIGN CHOICE, log 17). -/
def State.reset : State :=
  { timeBase := 0
    line := LineUnit.init
    store := Store.init
    channels := Vector.replicate 8 Channel.init
    capture := Capture.init
    cutoff := Cutoff.init
    link := Link.init .r115200
    session := Session.init
    startUp := true
    pins := Pins.init
    freeCount := 0
    pending := [] }

end Sys2Proof.Machine
end

