-- ==== Sys2Proof/Machine/Bytes.lean ====
section
/-! DEFINITION. Byte order, bit sets and the CRC of the link (00_scope.md section 6, R141,
chapter 10). -/

namespace Sys2Proof.Machine

/-- The two bytes of a 16-bit field, low byte first. -/
def le16 (h : Half) : List Byte := [h.extractLsb' 0 8, h.extractLsb' 8 8]

/-- The three bytes of a 24-bit field, low byte first. -/
def le24 (v : BitVec 24) : List Byte :=
  [v.extractLsb' 0 8, v.extractLsb' 8 8, v.extractLsb' 16 8]

/-- The four bytes of a 32-bit field, low byte first. -/
def le32 (w : Word) : List Byte :=
  [w.extractLsb' 0 8, w.extractLsb' 8 8, w.extractLsb' 16 8, w.extractLsb' 24 8]

/-- A 16-bit field from its bytes, low byte first. -/
def read16 (b0 b1 : Byte) : Half := b1 ++ b0

/-- A 24-bit field from its bytes, low byte first. -/
def read24 (b0 b1 b2 : Byte) : BitVec 24 := b2 ++ b1 ++ b0

/-- A 32-bit field from its bytes, low byte first. -/
def read32 (b0 b1 b2 b3 : Byte) : Word := b3 ++ b2 ++ b1 ++ b0

/-- A small count as a byte. -/
def byteOf (n : Nat) : Byte := BitVec.ofNat 8 n

/-- The number whose bit k is the k-th flag. -/
def bitsNat (flags : List Bool) : Nat :=
  match flags with
  | [] => 0
  | b :: rest => b.toNat + 2 * bitsNat rest

/-- A bit set or presence byte: bit k is the k-th flag, and the bits beyond are 0 (section 10.3,
R177). -/
def bitSet (flags : List Bool) : Byte := byteOf (bitsNat flags)

/-- One shift of the CRC register (R141). -/
def crcShift (r : Half) : Half := if r.msb then (r <<< 1) ^^^ 0x1021 else r <<< 1

/-- The CRC register after one byte (R141). -/
def crcByte (r : Half) (b : Byte) : Half :=
  let r0 := r ^^^ (b ++ (0 : Byte))
  crcShift (crcShift (crcShift (crcShift (crcShift (crcShift (crcShift (crcShift r0)))))))

/-- The CRC-16 of a run of bytes: polynomial 1021h, starting at FFFFh (R141). -/
def crc16 (bytes : List Byte) : Half := bytes.foldl crcByte 0xFFFF

/-- The LEN byte of a frame: KIND, TAG and the payload (R141). -/
def Frame.len (f : Frame) : Byte := byteOf (f.payload.length + 2)

/-- The CRC of a frame, over LEN, KIND, TAG and the payload (R141). -/
def Frame.crc (f : Frame) : Half := crc16 (f.len :: f.kind :: f.tag :: f.payload)

/-- The bytes of a frame on the wire, in order (R141). -/
def Frame.bytes (f : Frame) : List Byte :=
  0xA5 :: f.len :: f.kind :: f.tag :: (f.payload ++ le16 f.crc)

/-- The time a frame occupies TXD, in millionths of a bit time: LEN + 4 bytes of 10 bit times each
(R140, R152; log 16). -/
def Frame.wireTime (f : Frame) : Int := ((f.payload.length + 6) * 10000000 : Nat)

/-- Bits a second at a link rate (R140). -/
def LinkRate.bitsPerSecond (r : LinkRate) : Nat :=
  match r with
  | .r115200 => 115200
  | .r460800 => 460800
  | .r1000000 => 1000000
  | .r3000000 => 3000000

/-- The rate chosen by the straps BAUD1 and BAUD0 (R140). -/
def LinkRate.ofStraps (baud1 baud0 : Level) : LinkRate :=
  match baud1, baud0 with
  | .low, .low => .r115200
  | .low, .high => .r460800
  | .high, .low => .r1000000
  | .high, .high => .r3000000

end Sys2Proof.Machine
end

