-- ==== Sys2Proof/Machine/Flags.lean ====
section
/-! DEFINITION. The numeric codes the part sends (sections 10.2 and 10.3): result codes, state and
cause codes, bit sets, and the wire layouts of steps, bindings, sources, capture entries and
reports (sections 10.3 and 10.6). -/

namespace Sys2Proof.Machine

/-- The result codes of a reply (section 10.2). -/
inductive Result where
  | ok
  | unknownKind
  | badLength
  | badValue
  | noSession
  | notFound
  | state
  | inUse
  | noSpace
  | duplicate
  | cutoffActive
  | baseChange
  | endless
  | past
  | streaming
  | defining
  deriving DecidableEq, Repr

/-- The code of a result (section 10.2). -/
def Result.code (r : Result) : Byte :=
  match r with
  | .ok => 0x00
  | .unknownKind => 0x01
  | .badLength => 0x02
  | .badValue => 0x03
  | .noSession => 0x04
  | .notFound => 0x05
  | .state => 0x06
  | .inUse => 0x07
  | .noSpace => 0x08
  | .duplicate => 0x09
  | .cutoffActive => 0x0A
  | .baseChange => 0x0B
  | .endless => 0x0C
  | .past => 0x0D
  | .streaming => 0x0E
  | .defining => 0x0F

/-- What a request is answered: its result and the fields after the flags byte. -/
structure Answer where
  result : Result
  fields : List Byte
  deriving DecidableEq, Repr

/-- The payload of a reply: the result code, the flags byte with REPEAT clear, the fields
(section 10.2, R146). -/
def Answer.payload (a : Answer) : List Byte := a.result.code :: 0 :: a.fields

/-- A refusal with every field after the flags byte 0, n bytes of them (R147, R173). -/
def refusal (r : Result) (n : Nat) : Answer := { result := r, fields := List.replicate n 0 }

/-- yes and no, set and clear, present and absent (section 10.3). -/
def boolCode (b : Bool) : Byte := if b then 1 else 0

def levelCode (l : Level) : Byte :=
  match l with
  | .low => 0
  | .high => 1

def ChanState.code (c : ChanState) : Byte :=
  match c with
  | .off => 0
  | .ready => 1
  | .running => 2
  | .draining => 3
  | .forced => 4

def Base.code (b : Base) : Byte :=
  match b with
  | .time => 0
  | .line => 1

def Mode.code (m : Mode) : Byte :=
  match m with
  | .triggered => 0
  | .continuous => 1

def Overlap.code (o : Overlap) : Byte :=
  match o with
  | .defer => 0
  | .drop => 1

def StallAction.code (a : StallAction) : Byte :=
  match a with
  | .hold => 0
  | .abort => 1

def ProgState.code (p : ProgState) : Byte :=
  match p with
  | .empty => 0
  | .opened => 1
  | .sealed => 2

def LineState.code (l : LineState) : Byte :=
  match l with
  | .waiting => 0
  | .moving => 1
  | .stalled => 2

def Latch.code (l : Latch) : Byte :=
  match l with
  | .clear => 0
  | .tripped => 1

def SessionState.code (s : SessionState) : Byte :=
  match s with
  | .closed => 0
  | .opened => 1

def CloseCause.code (c : CloseCause) : Byte :=
  match c with
  | .none => 0
  | .request => 1
  | .reopen => 2
  | .silence => 3
  | .restart => 4

def CapMode.code (m : CapMode) : Byte :=
  match m with
  | .off => 0
  | .edges => 1
  | .widthHigh => 2
  | .widthLow => 3
  | .periodRise => 4
  | .periodFall => 5

def LogEdges.code (e : LogEdges) : Byte :=
  match e with
  | .rise => 0
  | .fall => 1
  | .both => 2
  | .none => 3

def RouteEdge.code (e : RouteEdge) : Byte :=
  match e with
  | .rise => 0
  | .fall => 1
  | .both => 2

def Edge.code (e : Edge) : Byte :=
  match e with
  | .rise => 0
  | .fall => 1

def FiringOutcome.code (o : FiringOutcome) : Byte :=
  match o with
  | .complete => 0
  | .abortedHalt => 1
  | .abortedCutoff => 2
  | .abortedStall => 3

def MissedCause.code (c : MissedCause) : Byte :=
  match c with
  | .queueFull => 0
  | .busy => 1
  | .late => 2
  | .stopping => 3
  | .mode => 4
  | .halted => 5
  | .cutoff => 6

def OffCause.code (c : OffCause) : Byte :=
  match c with
  | .drained => 0
  | .stall => 1

def CapKind.code (k : CapKind) : Nat :=
  match k with
  | .rise => 0
  | .fall => 1
  | .widthHigh => 2
  | .widthLow => 3
  | .period => 4
  | .gap => 5

def StepLevel.code (l : StepLevel) : Nat :=
  match l with
  | .low => 0
  | .high => 1
  | .idle => 2
  | .active => 3

/-- A cause set as a byte: bit 0 PIN, bit 1 REQUEST, bit 2 SILENCE (section 10.3). -/
def CauseSet.code (c : CauseSet) : Byte := bitSet [c.pin, c.request, c.silence]

/-- A program id as a byte. -/
def programCode (p : Fin 32) : Byte := byteOf (p.val + 1)

/-- The lost counts, 12 bytes (section 10.3). -/
def LostCounts.bytes (c : LostCounts) : List Byte :=
  le16 c.firing ++ le16 c.missed ++ le16 c.step ++ le16 c.channel ++ le16 c.line ++ le16 c.urgent

/-- A source, 4 bytes (section 10.3). -/
def Source.bytes (s : Source) : List Byte :=
  match s with
  | .route id input edge => [0, byteOf id.val, byteOf input.val, edge.code]
  | .host tag => 1 :: (le16 tag ++ [0])

/-- The descriptor of a step; a DRIVE step has zero input and edge fields (section 10.3, R2). -/
def ProgStep.descriptor (s : ProgStep) : Byte :=
  match s.kind with
  | .drive => byteOf (4 * s.level.code)
  | .holdUntil input edge =>
    byteOf (1 + 4 * s.level.code + 16 * input.val + 128 * edge.code.toNat)

/-- A step, 4 bytes (section 10.3). -/
def ProgStep.bytes (s : ProgStep) : List Byte := le24 s.duration ++ [s.descriptor]

/-- A binding, 12 bytes (section 10.3). -/
def Binding.bytes (b : Binding) : List Byte :=
  [programCode b.program, b.base.code, b.mode.code, levelCode b.idle, b.overlap.code, b.stall.code] ++
    le32 (b.delay.setWidth 32) ++ le16 b.lateLimit

/-- The descriptor of a capture entry (section 10.3). -/
def CapEntry.descriptor (e : CapEntry) : Byte :=
  byteOf (e.input.val + 4 * e.kind.code + 128 * e.saturated.toNat)

/-- A capture entry, 14 bytes (section 10.3). -/
def CapEntry.bytes (e : CapEntry) : List Byte :=
  le16 e.number ++ [e.descriptor] ++ le24 e.value ++ le32 e.time ++ le32 e.line

/-- The KIND of a report frame (section 10.6). -/
def ReportBody.kind (b : ReportBody) : Byte :=
  match b with
  | .firingEnd _ => 0xC1
  | .missed _ => 0xC2
  | .stepTimeout _ _ _ => 0xC3
  | .channelOff _ _ => 0xC4
  | .bindingApplied _ _ => 0xC5
  | .lineStall _ _ => 0xC6
  | .lineResumed _ => 0xC7
  | .capture _ => 0xC8
  | .cutoffTripped _ _ => 0xC9
  | .cutoffReleased _ => 0xCA
  | .reportsLost _ => 0xCB

/-- An absent optional field carries 0 (R177). -/
def orZero16 (h : Option Half) : List Byte := le16 (h.getD 0)

/-- An absent optional point carries 0 (R177). -/
def orZero32 (w : Option Word) : List Byte := le32 (w.getD 0)

/-- The fields of a report after its sequence (section 10.6). -/
def ReportBody.fields (b : ReportBody) : List Byte :=
  match b with
  | .firingEnd r =>
    [byteOf r.channel.val] ++ le16 r.number ++ r.source.bytes ++ le32 r.trigger ++ le32 r.due ++
      le32 r.start ++ le32 r.lateness ++ le32 r.endPoint ++ [r.outcome.code]
  | .missed r =>
    [byteOf r.channel.val, r.cause.code] ++ le16 r.count ++
      [bitSet [r.number.isSome, r.due.isSome]] ++ orZero16 r.number ++ r.source.bytes ++
      le32 r.trigger ++ orZero32 r.due
  | .stepTimeout channel number step =>
    [byteOf channel.val, bitSet [number.isSome]] ++ orZero16 number ++ [byteOf step]
  | .channelOff channel cause => [byteOf channel.val, cause.code]
  | .bindingApplied channel program => [byteOf channel.val, programCode program]
  | .lineStall lineValue lastEdge => le32 lineValue ++ le32 lastEdge
  | .lineResumed milliseconds => le32 milliseconds
  | .capture entry => entry.bytes
  | .cutoffTripped causes forced => [causes.code, forced]
  | .cutoffReleased released => [released]
  | .reportsLost counts => counts.bytes

/-- The frame of a report as it stands when its transmission starts (R163, R168, R178). -/
def Report.frame (r : Report) : Frame :=
  { kind := r.body.kind, tag := r.session, payload := le16 r.sequence ++ r.body.fields }

end Sys2Proof.Machine
end

