-- ==== Sys2Proof/Machine/Operands.lean ====
section
/-! DEFINITION. Reading the fields of a request payload (sections 10.3 and 10.4): a code that names
no value is `none` (R175). -/

namespace Sys2Proof.Machine

/-- A channel number 0..7 (R23). -/
def channelOf (b : Byte) : Option (Fin 8) :=
  if h : b.toNat < 8 then some ⟨b.toNat, h⟩ else none

/-- A capture input 0..3 (R111, R114). -/
def inputOf (b : Byte) : Option (Fin 4) :=
  if h : b.toNat < 4 then some ⟨b.toNat, h⟩ else none

/-- A route id 0..15 (R115). -/
def routeIdOf (b : Byte) : Option (Fin 16) :=
  if h : b.toNat < 16 then some ⟨b.toNat, h⟩ else none

/-- A program id 1..32, as its place in the table (R1, R5). -/
def programOf (b : Byte) : Option (Fin 32) :=
  if h : 1 ≤ b.toNat ∧ b.toNat ≤ 32 then some ⟨b.toNat - 1, by omega⟩ else none

/-- A filter 0..15 (R94, R111). -/
def filterOf (b : Byte) : Option (BitVec 4) :=
  if b.toNat < 16 then some (BitVec.ofNat 4 b.toNat) else none

/-- no or yes, off or on, absent or present (section 10.3). -/
def boolOf (b : Byte) : Option Bool :=
  match b.toNat with
  | 0 => some false
  | 1 => some true
  | _ => none

def levelOf (b : Byte) : Option Level :=
  match b.toNat with
  | 0 => some .low
  | 1 => some .high
  | _ => none

def baseOf (b : Byte) : Option Base :=
  match b.toNat with
  | 0 => some .time
  | 1 => some .line
  | _ => none

def modeOf (b : Byte) : Option Mode :=
  match b.toNat with
  | 0 => some .triggered
  | 1 => some .continuous
  | _ => none

def overlapOf (b : Byte) : Option Overlap :=
  match b.toNat with
  | 0 => some .defer
  | 1 => some .drop
  | _ => none

def stallActionOf (b : Byte) : Option StallAction :=
  match b.toNat with
  | 0 => some .hold
  | 1 => some .abort
  | _ => none

def capModeOf (b : Byte) : Option CapMode :=
  match b.toNat with
  | 0 => some .off
  | 1 => some .edges
  | 2 => some .widthHigh
  | 3 => some .widthLow
  | 4 => some .periodRise
  | 5 => some .periodFall
  | _ => none

def logEdgesOf (b : Byte) : Option LogEdges :=
  match b.toNat with
  | 0 => some .rise
  | 1 => some .fall
  | 2 => some .both
  | 3 => some .none
  | _ => none

def routeEdgeOf (b : Byte) : Option RouteEdge :=
  match b.toNat with
  | 0 => some .rise
  | 1 => some .fall
  | 2 => some .both
  | _ => none

/-- A report mask; a set bit 5, 6 or 7 names no class (section 10.3, R175). -/
def maskOf (b : Byte) : Option ReportMask :=
  if b.toNat < 32 then
    some { firing := b.getLsbD 0, missed := b.getLsbD 1, step := b.getLsbD 2,
           channel := b.getLsbD 3, line := b.getLsbD 4 }
  else none

/-- The level code of a step descriptor, bits 3..2 (section 10.3). -/
def stepLevelOf (descriptor : Byte) : StepLevel :=
  match descriptor.toNat / 4 % 4 with
  | 0 => .low
  | 1 => .high
  | 2 => .idle
  | _ => .active

/-- The edge bit of a step descriptor (section 10.3). -/
def stepEdgeOf (descriptor : Byte) : Edge :=
  if descriptor.getLsbD 7 then .fall else .rise

/-- A step from its 4 bytes, or none when it fails the step check: a kind code of 2 or 3, a
duration of 0, or a HOLD_UNTIL input of 4..7. The input and edge bits of a DRIVE step are neither
checked nor stored (R8, R174). -/
def stepOf (b0 b1 b2 descriptor : Byte) : Option ProgStep :=
  let duration := read24 b0 b1 b2
  let level := stepLevelOf descriptor
  if duration = 0 then none
  else
    match descriptor.toNat % 4 with
    | 0 => some { kind := .drive, level := level, duration := duration }
    | 1 =>
      if h : descriptor.toNat / 16 % 8 < 4 then
        some { kind := .holdUntil ⟨descriptor.toNat / 16 % 8, h⟩ (stepEdgeOf descriptor),
               level := level, duration := duration }
      else none
    | _ => none

/-- The steps an APPEND_STEPS carries, or the position of the first that fails the step check;
`position` is the position of the first byte group (R8, R174). -/
def stepsOf (position : Nat) (bytes : List Byte) : Except Nat (List ProgStep) :=
  match bytes with
  | b0 :: b1 :: b2 :: d :: rest =>
    match stepOf b0 b1 b2 d with
    | none => .error position
    | some st =>
      match stepsOf (position + 1) rest with
      | .error k => .error k
      | .ok steps => .ok (st :: steps)
  | _ => .ok []

/-- The fields of a binding for a program id 1..32, or none when a code names no value or the delay
is above 16,777,215 (R73 check 1, R175, section 10.3). -/
def bindingOf (program : Fin 32) (base mode idle overlap stall : Byte) (delay : Word)
    (lateLimit : Half) : Option Binding :=
  match baseOf base, modeOf mode, levelOf idle, overlapOf overlap, stallActionOf stall with
  | some base, some mode, some idle, some overlap, some stall =>
    if delay.toNat ≤ Config.maxDelay then
      some { program := program, base := base, mode := mode, idle := idle,
             delay := delay.setWidth 24, overlap := overlap, lateLimit := lateLimit,
             stall := stall }
    else none
  | _, _, _, _, _ => none

end Sys2Proof.Machine
end

