-- ==== Sys2Proof/Machine/Ops.lean ====
section
/-! DEFINITION. Shared operations: the order of points (R87), access to the channels and programs,
use counts (R14), input filters (R89), and stamps and coordinates of the line base (R69, R98). -/

namespace Sys2Proof.Machine

/-! ## Points -/

/-- Point `a` is at or after point `b` (R87). -/
def atOrAfter (a b : Word) : Bool := decide ((a - b).toNat < 2147483648)

/-- The distance of a due point from now, as a signed number (R51). -/
def dueOffset (now : Word) (e : Entry) : Int := (e.due - now).toInt

/-- The expiry point of a timer started now for a number of milliseconds (R160, R162, R170). -/
def expiryPoint (now : Word) (milliseconds : Half) : Word :=
  now + BitVec.ofNat 32 (milliseconds.toNat * 1000)

/-- Whether a timer has reached its expiry point; a stopped timer has not (R162, R170). -/
def timerExpired (now : Word) (timer : Option Word) : Bool :=
  match timer with
  | none => false
  | some p => atOrAfter now p

/-- The opposite level. -/
def oppositeLevel (l : Level) : Level :=
  match l with
  | .low => .high
  | .high => .low

/-- The kind of an accepted change to a level (R104). -/
def edgeTo (l : Level) : Edge :=
  match l with
  | .low => .fall
  | .high => .rise

/-! ## Channels and programs -/

/-- The eight channels in increasing number. -/
def allChannels : List (Fin 8) := [0, 1, 2, 3, 4, 5, 6, 7]

/-- The record of a channel (R19). -/
def State.chan (s : State) (c : Fin 8) : Channel := s.channels[c]

/-- The state with another record for one channel. -/
def State.setChan (s : State) (c : Fin 8) (ch : Channel) : State :=
  { s with channels := s.channels.set c ch }

/-- The state with one channel's record changed. -/
def State.modChan (s : State) (c : Fin 8) (f : Channel → Channel) : State :=
  s.setChan c (f (s.chan c))

/-- A channel set, one flag for each of CH0 to CH7 (section 10.3). -/
def chanSet (p : Fin 8 → Bool) : Byte := bitSet (allChannels.map p)

/-- The channels that are FORCED (R129, R135). -/
def forcedSet (s : State) : Byte := chanSet fun c => (s.chan c).state = .forced

/-- The channels that are cutoff members (R131). -/
def memberSet (s : State) : Byte := chanSet fun c => (s.chan c).member

/-- The level of a channel at rest: the idle level of its active binding, or LOW without one
(R21). -/
def Channel.idleLevel (ch : Channel) : Level :=
  match ch.active with
  | some b => b.idle
  | none => .low

/-- Whether a channel is LINE-bound (R19). -/
def Channel.lineBound (ch : Channel) : Bool :=
  match ch.active with
  | some b => b.base = .line
  | none => false

/-- Whether a channel can have a firing or pass in progress: RUNNING or DRAINING (R21). -/
def Channel.inService (ch : Channel) : Bool := ch.state = .running || ch.state = .draining

/-- The level of a step under a binding (R22). -/
def resolveLevel (b : Binding) (l : StepLevel) : Level :=
  match l with
  | .low => .low
  | .high => .high
  | .idle => b.idle
  | .active => oppositeLevel b.idle

/-- The program at a place of the table (R1). -/
def State.prog (s : State) (p : Fin 32) : Program := s.store.programs[p]

/-- The state with another record for one program. -/
def State.setProg (s : State) (p : Fin 32) (r : Program) : State :=
  { s with store := { s.store with programs := s.store.programs.set p r } }

/-- A binding that names the program has become active or pending (R14). -/
def raiseUse (s : State) (p : Fin 32) : State :=
  s.setProg p { s.prog p with useCount := (s.prog p).useCount + 1 }

/-- A binding that names the program has stopped being active or pending (R14). -/
def lowerUse (s : State) (p : Fin 32) : State :=
  s.setProg p { s.prog p with useCount := (s.prog p).useCount - 1 }

/-- The use count released by a binding that leaves, if there is one (R14). -/
def releaseUse (s : State) (b : Option Binding) : State :=
  match b with
  | none => s
  | some b => lowerUse s b.program

/-! ## Input filters -/

/-- One sample of a filtered input whose accepted level is known: a sample back at the accepted
level cancels the candidate, another adds one to it (R89, R104, R128). -/
def sampleFilter (accepted : Level) (candidate : Option Candidate) (sample : Level) :
    Option Candidate :=
  if sample = accepted then none
  else
    match candidate with
    | some k => if k.level = sample then some { k with count := k.count + 1 }
                else some { level := sample, count := 1 }
    | none => some { level := sample, count := 1 }

/-- The level a candidate is accepted at: it has been sampled on filter + 1 consecutive ticks
(R89). -/
def acceptedChange (candidate : Option Candidate) (filter : Nat) : Option Level :=
  match candidate with
  | none => none
  | some k => if filter + 1 ≤ k.count then some k.level else none

/-! ## Stamps and line coordinates -/

/-- The stamps of an event now, with the presets made before it (R98, R105). -/
def stampNow (s : State) : Stamp :=
  { time := s.timeBase, line := s.line.lineBase, mark := s.line.presetsMade,
    offset := s.line.offsetSum }

/-- A line value in the coordinates of the presets a channel has taken: the offsets between the
value's mark and the channel's count are added or removed (R69, R98). -/
def lineInCoords (ch : Channel) (value : Word) (mark : Half) (offset : Word) : Word :=
  if mark = ch.presetsTaken then value else value + (ch.coords - offset)

/-- A stamp as a point of the channel's base; without a binding it has none, and the time stamp
stands in (no rule reads it; log 10). -/
def pointOfStamp (ch : Channel) (st : Stamp) : Word :=
  if ch.lineBound then lineInCoords ch st.line st.mark st.offset else st.time

/-- Now on the channel's base, in the channel's own coordinates (R56, R69). -/
def chanNow (s : State) (c : Fin 8) : Word := pointOfStamp (s.chan c) (stampNow s)

end Sys2Proof.Machine
end

