-- ==== Sys2Proof/Machine/Reports.lean ====
section
/-! DEFINITION. The report queue (R163 to R168), the moves of the capture log into it (R121, R125)
and the transmit arbiter (R152). -/

namespace Sys2Proof.Machine

/-! ## Submission -/

/-- The classes of reports (R163); `unmasked` is CAPTURE, which has no class. -/
inductive ReportClass where
  | firing
  | missed
  | step
  | channel
  | line
  | urgent
  | unmasked
  deriving DecidableEq, Repr

/-- The class of a report (R163). -/
def ReportBody.reportClass (b : ReportBody) : ReportClass :=
  match b with
  | .firingEnd _ => .firing
  | .missed _ => .missed
  | .stepTimeout _ _ _ => .step
  | .channelOff _ _ => .channel
  | .bindingApplied _ _ => .channel
  | .lineStall _ _ => .urgent
  | .lineResumed _ => .line
  | .capture _ => .unmasked
  | .cutoffTripped _ _ => .urgent
  | .cutoffReleased _ => .urgent
  | .reportsLost _ => .urgent

/-- Whether the mask lets a class through; urgent reports and CAPTURE reports are not subject to it
(R165 step 2). -/
def ReportMask.allows (m : ReportMask) (k : ReportClass) : Bool :=
  match k with
  | .firing => m.firing
  | .missed => m.missed
  | .step => m.step
  | .channel => m.channel
  | .line => m.line
  | .urgent => true
  | .unmasked => true

/-- The lost counts with one more report of a class lost (R165 steps 4 and 5). -/
def LostCounts.count (l : LostCounts) (k : ReportClass) : LostCounts :=
  match k with
  | .firing => { l with firing := l.firing.satSucc }
  | .missed => { l with missed := l.missed.satSucc }
  | .step => { l with step := l.step.satSucc }
  | .channel => { l with channel := l.channel.satSucc }
  | .line => { l with line := l.line.satSucc }
  | .urgent => { l with urgent := l.urgent.satSucc }
  | .unmasked => l

/-- Whether a report has been sent and not acknowledged: SENT or RESEND (R164). -/
def Report.unacknowledged (r : Report) : Bool := r.state != .new

/-- Free slots of the report queue (R164). -/
def Session.freeSlots (se : Session) : Nat := Config.reportQueueSize - se.reports.length

/-- Reports that are SENT (R168). -/
def Session.sentCount (se : Session) : Nat := se.reports.countP fun r => r.state == .sent

/-- Reports that are sent and unacknowledged (R164). -/
def Session.unacknowledged (se : Session) : Nat := se.reports.countP Report.unacknowledged

/-- A report enters at the tail in state NEW with the next sequence (R164, R165). -/
def Session.enter (se : Session) (b : ReportBody) : Session :=
  { se with
    reports := se.reports ++
      [{ sequence := se.nextSequence, body := b, session := se.number, state := .new }]
    nextSequence := se.nextSequence + 1 }

/-- The REPORTS_LOST check (R167): with a count waiting and 3 slots free, the counts go into the
queue and become 0. -/
def Session.lossCheck (se : Session) : Session :=
  if se.lost ≠ LostCounts.zero ∧ Config.ordinaryRoom ≤ se.freeSlots then
    { se.enter (.reportsLost se.lost) with lost := LostCounts.zero }
  else se

/-- A queued report with a MISSED submission coalesced into it (R166): the counts add up, and the
last fields take the values of the submission (log 11). -/
def coalesceInto (q r : MissedReport) : MissedReport :=
  { r with count := q.count.satAdd r.count }

/-- The queue with a MISSED submission coalesced into the NEW MISSED of the same channel and cause,
or none when there is no such report (R166). -/
def coalesceMissed (r : MissedReport) (reports : List Report) : Option (List Report) :=
  match reports with
  | [] => none
  | x :: rest =>
    let others := (coalesceMissed r rest).map (x :: ·)
    match x.body with
    | .missed q =>
      if x.state = .new ∧ q.channel = r.channel ∧ q.cause = r.cause then
        some ({ x with body := .missed (coalesceInto q r) } :: rest)
      else others
    | _ => others

/-- Admission of an ordinary report (R165 step 4), the REPORTS_LOST check first. -/
def Session.submitOrdinary (se : Session) (b : ReportBody) : Session :=
  let se1 := se.lossCheck
  if Config.ordinaryRoom ≤ se1.freeSlots then se1.enter b
  else { se1 with lost := se1.lost.count b.reportClass }

/-- Admission of an urgent report (R165 step 5). -/
def Session.submitUrgent (se : Session) (b : ReportBody) : Session :=
  if 1 ≤ se.freeSlots then se.enter b
  else { se with lost := se.lost.count b.reportClass }

/-- Steps 3 to 5 of the judgement of a submission (R165). -/
def Session.judge (se : Session) (b : ReportBody) : Session :=
  match b with
  | .missed r =>
    match coalesceMissed r se.reports with
    | some reports => { se with reports := reports }
    | none => se.submitOrdinary b
  | _ => if b.reportClass = .urgent then se.submitUrgent b else se.submitOrdinary b

/-- The judgement of a submitted report (R165): discarded with no session or under the mask, else
coalesced, admitted, or dropped and counted. -/
def Session.submit (se : Session) (b : ReportBody) : Session :=
  match se.state, se.mask with
  | .opened, some m => if m.allows b.reportClass then se.judge b else se
  | _, _ => se

/-- A block submits a report (R165). -/
def submit (s : State) (b : ReportBody) : State := { s with session := s.session.submit b }

/-! ## Moves of the capture log -/

/-- When entries have left the log and the drop count is above 0, a GAP entry is appended with the
next number, and the drop count becomes 0 (R121). -/
def Capture.appendGap (cap : Capture) (time line : Word) : Capture :=
  if cap.dropCount = 0 then cap
  else
    { cap with
      log := cap.log ++
        [{ number := cap.nextNumber, input := cap.lastDropped.getD 0, kind := .gap, time := time,
           line := line, value := cap.dropCount.setWidth 24, saturated := false }]
      nextNumber := cap.nextNumber + 1
      dropCount := 0
      lastDropped := none }

/-- Moves of the oldest log entries into the report queue while streaming is on, the session OPEN
and the checks of an ordinary admission leave room (R125, R167); `fuel` bounds the moves, and each
takes a slot of the queue. -/
def moveCaptures (fuel : Nat) (time line : Word) (cap : Capture) (se : Session) :
    Capture × Session :=
  match fuel with
  | 0 => (cap, se)
  | n + 1 =>
    if cap.streaming ∧ se.state = .opened then
      match cap.log with
      | [] => (cap, se)
      | e :: rest =>
        let se1 := se.lossCheck
        if Config.ordinaryRoom ≤ se1.freeSlots then
          moveCaptures n time line (Capture.appendGap { cap with log := rest } time line)
            (se1.enter (.capture e))
        else (cap, se1)
    else (cap, se)

/-- The capture moves tried in an event (R125). -/
def tryMoves (s : State) : State :=
  let r := moveCaptures Config.reportQueueSize s.timeBase s.line.lineBase s.capture s.session
  { s with capture := r.1, session := r.2 }

/-! ## The transmit arbiter -/

/-- The report that is eligible: the oldest that is not SENT, while the session is OPEN and fewer
than 8 are SENT (R168). -/
def Session.eligible (se : Session) : Option Report :=
  if se.state = .opened ∧ se.sentCount < Config.reportWindow then
    se.reports.find? fun r => r.state != .sent
  else none

/-- The queue with its oldest report that is not SENT become SENT (R168). -/
def markSent (reports : List Report) : List Report :=
  match reports with
  | [] => []
  | r :: rest => if r.state = .sent then r :: markSent rest else { r with state := .sent } :: rest

/-- The resend timer started now, or stopped when the resend time is 0 (R170). -/
def Session.startResend (se : Session) (now : Word) : Option Word :=
  match se.resendTime with
  | some r => if r = 0 then none else some (expiryPoint now r)
  | none => none

/-- The session and report unit is told that the eligible report is sent: it becomes SENT, and the
resend timer starts when no other report is SENT (R168, R170). -/
def Session.reportSent (se : Session) (now : Word) : Session :=
  { se with
    reports := markSent se.reports
    resendTimer := if se.sentCount = 0 then se.startResend now else se.resendTimer }

/-- A frame starts on TXD; `carry` is the part of the tick the frame before it left unused, 0 or
less (R152, log 16). -/
def transmit (s : State) (f : Frame) (carry : Int) : State :=
  { s with link := { s.link with transmitter := .sending f (f.wireTime + carry) } }

/-- The reply at the head of the reply queue starts on TXD and leaves the queue (R148, R152). -/
def sendReply (s : State) (carry : Int) : State :=
  match s.link.replyQueue with
  | [] => s
  | f :: rest => transmit { s with link := { s.link with replyQueue := rest } } f carry

/-- The eligible report starts on TXD (R152, R168, R178). -/
def sendReport (s : State) (carry : Int) : State :=
  match s.session.eligible with
  | none => s
  | some r => transmit { s with session := s.session.reportSent s.timeBase } r.frame carry

/-- The arbiter's choice when the transmitter is IDLE: a waiting reply, otherwise the eligible
report, otherwise nothing (R152). -/
def arbitrateCarry (s : State) (carry : Int) : State :=
  match s.link.transmitter with
  | .sending _ _ => s
  | .idle => if s.link.replyQueue ≠ [] then sendReply s carry else sendReport s carry

/-- The arbiter at the end of an event (R152, log 7). -/
def arbitrate (s : State) : State := arbitrateCarry s 0

/-- The arbiter at the end of a request execution, in which a reply has entered the reply queue:
when a report has become eligible in the same event either may be taken first, and a free value
says which (R82, R152; log 8). -/
def arbitrateEither (s : State) : State :=
  if s.link.transmitter = .idle ∧ s.session.eligible.isSome then
    let s1 := { s with freeCount := s.freeCount + 1 }
    if Config.freeBit s.freeCount then sendReport s1 0 else arbitrate s1
  else arbitrate s

end Sys2Proof.Machine
end

