-- ==== Sys2Proof/Machine/Engine.lean ====
section
/-! DEFINITION. The channel engine (chapters 2 to 4): steps, firings and passes, the firing queue,
due handling, the firing-end examination, application and discard of the pending binding, HALT and
forcing. -/

namespace Sys2Proof.Machine

/-! ## Losses -/

/-- A MISSED submission; the channel's missed counter rises by its count (R45, R72). -/
def submitMissed (s : State) (r : MissedReport) : State :=
  submit (s.modChan r.channel fun ch => { ch with missed := ch.missed + r.count }) (.missed r)

/-- One queued entry is lost (R71). -/
def loseEntry (c : Fin 8) (cause : MissedCause) (s : State) (e : Entry) : State :=
  submitMissed s
    { channel := c, cause := cause, count := 1, number := some e.number, source := e.source,
      trigger := e.trigger, due := some e.due }

/-- The entries at the head that satisfy `p` are discarded one after another, each with its own
MISSED (R52, R60, R63). -/
def dropHeads (s : State) (c : Fin 8) (cause : MissedCause) (p : Entry → Bool) : State :=
  let queue := (s.chan c).queue
  (queue.takeWhile p).foldl (loseEntry c cause)
    (s.modChan c fun ch => { ch with queue := queue.dropWhile p })

/-- A flush removes every entry and tells of them in one MISSED with the tail entry's fields
(R66). -/
def flushQueue (s : State) (c : Fin 8) (cause : MissedCause) : State :=
  match (s.chan c).queue.getLast? with
  | none => s
  | some tail =>
    submitMissed (s.modChan c fun ch => { ch with queue := [] })
      { channel := c, cause := cause, count := BitVec.ofNat 16 (s.chan c).queue.length,
        number := some tail.number, source := tail.source, trigger := tail.trigger,
        due := some tail.due }

/-! ## Steps and starts -/

/-- The step at an index of a program. Every index a channel reaches is below the step count; the
value past the end is never read (log 28). -/
def stepAt (p : Program) (i : Nat) : ProgStep :=
  p.steps.getD i { kind := .drive, level := .idle, duration := 0 }

/-- The watch a step arms: its input and edge when it is HOLD_UNTIL (R36). -/
def watchOf (st : ProgStep) : Option Watch :=
  match st.kind with
  | .drive => none
  | .holdUntil input edge => some { input := input, edge := edge }

/-- The step at index `i` begins at point `p`: its end point is `p` plus its duration, its watch is
armed and its resolved level driven (R22, R32, R36). -/
def beginStep (s : State) (c : Fin 8) (b : Binding) (f : Firing) (i : Nat) (p : Word) : State :=
  let st := stepAt (s.prog b.program) i
  s.modChan c fun ch =>
    { ch with
      firing := some { f with stepIndex := i, stepStart := p,
                              stepEnd := p + st.duration.setWidth 32, watch := watchOf st }
      output := resolveLevel b st.level }

/-- The firing in progress of a start at point `p`, before its step 0 begins. Loop runs remaining
is the loop count less 1, which reads 65535 for loop count 0 (R29 to R31). -/
def newFiring (b : Binding) (s : State) (e : Option Entry) (p : Word) : Firing :=
  { entry := e, lateness := e.map fun x => p - x.due, start := p, stepIndex := 0, stepStart := p,
    stepEnd := p, loopRuns := (s.prog b.program).loopCount - 1, watch := none }

/-- A firing of entry `e` starts at point `p` (R30): the channel is RUNNING, or stays DRAINING. -/
def startFiring (s : State) (c : Fin 8) (b : Binding) (e : Entry) (p : Word) : State :=
  beginStep
    (s.modChan c fun ch =>
      { ch with state := if ch.state = .draining then .draining else .running })
    c b (newFiring b s (some e) p) 0 p

/-- A CONTINUOUS pass starts at point `p` (R31). -/
def startPass (s : State) (c : Fin 8) (b : Binding) (p : Word) : State :=
  beginStep s c b (newFiring b s none p) 0 p

/-! ## Ends -/

/-- The firing in progress is removed and the output goes to the idle level (R34, R35, R40). -/
def clearFiring (s : State) (c : Fin 8) : State :=
  s.modChan c fun ch => { ch with firing := none, output := ch.idleLevel }

/-- A firing that ends moves one counter (R45). -/
def countOutcome (o : FiringOutcome) (ch : Channel) : Channel :=
  match o with
  | .complete => { ch with completed := ch.completed + 1 }
  | _ => { ch with aborted := ch.aborted + 1 }

/-- A firing or pass ends at point `e`: a firing with its FIRING_END and its counter, a pass with
neither (R27, R34, R35, R40, R41, R132). -/
def endFiring (s : State) (c : Fin 8) (f : Firing) (e : Word) (o : FiringOutcome) : State :=
  match f.entry with
  | none => clearFiring s c
  | some x =>
    submit ((clearFiring s c).modChan c (countOutcome o))
      (.firingEnd
        { channel := c, number := x.number, source := x.source, trigger := x.trigger,
          due := x.due, start := f.start, lateness := f.lateness.getD 0, endPoint := e,
          outcome := o })

/-- The firing or pass in progress, if any, is aborted now (R27, R132). -/
def abortFiring (s : State) (c : Fin 8) (o : FiringOutcome) : State :=
  match (s.chan c).firing with
  | none => s
  | some f => endFiring s c f (chanNow s c) o

/-- The pending binding, if any, is discarded and its use count released (R81). -/
def discardPending (s : State) (c : Fin 8) : State :=
  (releaseUse s (s.chan c).pending).modChan c fun ch => { ch with pending := none }

/-- The pending binding, if any, becomes the active binding, and BINDING_APPLIED is submitted (R78
steps 1, 2 and 4; the output belongs to the boundary). -/
def applyPending (s : State) (c : Fin 8) : State :=
  match (s.chan c).pending with
  | none => s
  | some b =>
    submit
      ((releaseUse s (s.chan c).active).modChan c fun ch =>
        { ch with active := some b, pending := none })
      (.bindingApplied c b.program)

/-- A channel goes to OFF by itself, at the idle level (R35, R41, R44, R62). -/
def leaveService (s : State) (c : Fin 8) (cause : OffCause) : State :=
  submit (s.modChan c fun ch => { ch with state := .off, output := ch.idleLevel })
    (.channelOff c cause)

/-! ## The firing-end examination -/

/-- Whether a head entry is overdue beyond the limit at point `e`: under DEFER its lateness exceeds
the late limit, under DROP it exceeds 0 (R63). -/
def tooLate (b : Binding) (e : Word) (x : Entry) : Bool :=
  atOrAfter e x.due &&
    decide ((match b.overlap with
             | .defer => b.lateLimit.toNat
             | .drop => 0) < (e - x.due).toNat)

/-- Steps 4 and 5 of the examination: no entry starts (R62). -/
def restAfterFiring (s : State) (c : Fin 8) : State :=
  if (s.chan c).state = .draining ∧ (s.chan c).queue = [] then leaveService s c .drained
  else
    s.modChan c fun ch =>
      { ch with state := if ch.state = .running then .ready else ch.state,
                output := ch.idleLevel }

/-- Steps 2 to 5 of the examination, under the active binding as step 1 left it (R62, R63). -/
def examineQueue (s : State) (c : Fin 8) (b : Binding) (e : Word) : State :=
  let s1 := dropHeads s c .late (tooLate b e)
  match (s1.chan c).queue with
  | [] => restAfterFiring s1 c
  | x :: rest =>
    if atOrAfter e x.due then
      startFiring (s1.modChan c fun ch => { ch with queue := rest }) c b x e
    else restAfterFiring s1 c

/-- The firing-end examination at end point `e` (R62). -/
def examineEnd (s : State) (c : Fin 8) (e : Word) : State :=
  let s1 := applyPending s c
  match (s1.chan c).active with
  | none => s1
  | some b => examineQueue s1 c b e

/-! ## The end of a step -/

/-- A wrap point of a CONTINUOUS pass at point `e` (R35); `target` is the loop start, or none for a
return to step 0. -/
def wrapPoint (s : State) (c : Fin 8) (b : Binding) (f : Firing) (target : Option Nat) (e : Word) :
    State :=
  let s1 := applyPending s c
  if (s.chan c).state = .draining then leaveService (clearFiring s1 c) c .drained
  else
    match (s.chan c).pending, target with
    | some b1, _ => startPass s1 c b1 e
    | none, some i => beginStep s c b f i e
    | none, none => startPass s c b e

/-- A jump to the loop start at point `e`: examined first in CONTINUOUS mode, and nothing else in
TRIGGERED mode (R33). -/
def jumpToLoop (s : State) (c : Fin 8) (b : Binding) (f : Firing) (e : Word) : State :=
  let i := (s.prog b.program).loopStart
  match b.mode with
  | .triggered => beginStep s c b f i e
  | .continuous => wrapPoint s c b f (some i) e

/-- The running step ends at point `e`: the next step in index order begins there, or the loop, the
pass or the firing end acts (R32 to R35). -/
def endStep (s : State) (c : Fin 8) (b : Binding) (f : Firing) (e : Word) : State :=
  let p := s.prog b.program
  if f.stepIndex + 1 < p.steps.length then beginStep s c b f (f.stepIndex + 1) e
  else if p.loopCount = 0 then jumpToLoop s c b f e
  else if f.loopRuns ≠ 0 then jumpToLoop s c b { f with loopRuns := f.loopRuns - 1 } e
  else
    match b.mode with
    | .triggered => examineEnd (endFiring s c f e .complete) c e
    | .continuous => wrapPoint s c b f none e

/-! ## Due handling -/

/-- While a firing is in progress, DROP discards every head entry whose due point is reached, and
DEFER leaves them (R60). -/
def dueWhileRunning (s : State) (c : Fin 8) (b : Binding) : State :=
  match b.overlap with
  | .defer => s
  | .drop => dropHeads s c .busy fun x => atOrAfter (chanNow s c) x.due

/-- The head entry's due point is reached (R59, R60): with no firing in progress it starts now and
the new head is examined; with one, the overlap policy acts. -/
def handleDue (s : State) (c : Fin 8) : State :=
  let ch := s.chan c
  match ch.active, ch.queue with
  | some b, x :: rest =>
    if atOrAfter (chanNow s c) x.due then
      match ch.firing with
      | some _ => if ch.inService then dueWhileRunning s c b else s
      | none =>
        if ch.state = .ready ∨ ch.state = .draining then
          dueWhileRunning
            (startFiring (s.modChan c fun ch => { ch with queue := rest }) c b x (chanNow s c)) c b
        else s
    else s
  | _, _ => s

/-! ## Entries -/

/-- Insertion in order of due offset: after every entry whose offset is less than or equal to the
new one's, before the first whose offset is greater (R51). -/
def insertEntry (now : Word) (e : Entry) (queue : List Entry) : List Entry :=
  match queue with
  | [] => [e]
  | x :: rest =>
    if dueOffset now x ≤ dueOffset now e then x :: insertEntry now e rest else e :: x :: rest

/-- An entry is created: it takes the next firing number and is inserted, and the accepted counter
rises. At the head with its due point reached, it is handled in the same event (R50, R54, R57,
R61). -/
def createEntry (s : State) (c : Fin 8) (source : Source) (trigger due : Word) : State :=
  let e : Entry :=
    { number := (s.chan c).nextNumber, source := source, trigger := trigger, due := due }
  let s1 := s.modChan c fun ch =>
    { ch with queue := insertEntry (chanNow s c) e ch.queue, nextNumber := ch.nextNumber + 1,
              accepted := ch.accepted + 1 }
  if (s1.chan c).queue.head? = some e then handleDue s1 c else s1

/-- The due point a trigger has under a binding: the trigger point plus the delay (R49, R54). -/
def dueOf (b : Binding) (trigger : Word) : Word := trigger + b.delay.setWidth 32

/-! ## HALT and forcing -/

/-- HALT of a READY, RUNNING or DRAINING channel (R27). -/
def haltChannel (s : State) (c : Fin 8) : State :=
  (discardPending (flushQueue (abortFiring s c .abortedHalt) c .halted) c).modChan c fun ch =>
    { ch with output := ch.idleLevel, state := .off }

/-- The forcing of a member channel (R132). -/
def forceChannel (s : State) (c : Fin 8) : State :=
  (discardPending (flushQueue (abortFiring s c .abortedCutoff) c .cutoff) c).modChan c fun ch =>
    { ch with output := ch.safeLevel, state := .forced }

/-- Whether HALT acts on a channel: READY, RUNNING or DRAINING (R27). -/
def Channel.haltable (ch : Channel) : Bool :=
  ch.state = .ready || ch.state = .running || ch.state = .draining

end Sys2Proof.Machine
end

