-- ==== Sys2Proof/Machine/ChannelEvents.lean ====
section
/-! DEFINITION. The happenings of a channel engine (chapters 2 to 4): due points, step ends,
timeouts, edges, triggers, stall notices, presets and overdue entries. Where the named happening is
not there to be taken, nothing happens (log 2). -/

namespace Sys2Proof.Machine

/-! ## Due points and overdue entries -/

/-- Whether the head entry's due point is reached and the channel acts on it: with no firing in
progress in READY or DRAINING, or under DROP while one is in progress (R59, R60). An entry that R62
left waiting behind the firing it started, under a DROP binding it had just applied, is such a head
too (log 30). -/
def headDue (s : State) (c : Fin 8) : Bool :=
  let ch := s.chan c
  match ch.active, ch.queue with
  | some b, x :: _ =>
    atOrAfter (chanNow s c) x.due &&
      (match ch.firing with
       | some _ => ch.inService && b.overlap = .drop
       | none => ch.state = .ready || ch.state = .draining)
  | _, _ => false

/-- HEAD_ENTRY_DUE (R59, R60): under DEFER with a firing in progress the entry is held, and nothing
changes. -/
def execHeadEntryDue (c : Fin 8) (s : State) : Host.Outcome State Fault Refusal :=
  .next (if headDue s c then arbitrate (handleDue s c) else s)

/-- Whether now has reached an entry's due point plus 2^30 (R52). -/
def overdue (now : Word) (x : Entry) : Bool :=
  atOrAfter now (x.due + BitVec.ofNat 32 Config.horizon)

/-- ENTRY_OVERDUE_DISCARD (R52): the head entries that have reached the limit are discarded with
MISSED(LATE). -/
def execEntryOverdueDiscard (c : Fin 8) (s : State) : Host.Outcome State Fault Refusal :=
  .next
    (if (s.chan c).queue.head?.any (overdue (chanNow s c)) then
      arbitrate (dropHeads s c .late (overdue (chanNow s c)))
    else s)

/-! ## Step ends -/

/-- The firing in progress and its binding, when the channel is in service and the step end point
of its running step is reached (R32). -/
def stepEndReached (s : State) (c : Fin 8) : Option (Binding × Firing) :=
  let ch := s.chan c
  match ch.active, ch.firing with
  | some b, some f =>
    if ch.inService && atOrAfter (chanNow s c) f.stepEnd then some (b, f) else none
  | _, _ => none

/-- STEP_END (R32 to R35): the running DRIVE step ends at its end point. -/
def execStepEnd (c : Fin 8) (s : State) : Host.Outcome State Fault Refusal :=
  .next
    (match stepEndReached s c with
     | some (b, f) => if f.watch.isNone then arbitrate (endStep s c b f f.stepEnd) else s
     | none => s)

/-- HOLD_UNTIL_TIMEOUT (R37, R43): the armed HOLD_UNTIL step times out, STEP_TIMEOUT is submitted,
and the program goes on as after a DRIVE step. -/
def execHoldUntilTimeout (c : Fin 8) (s : State) : Host.Outcome State Fault Refusal :=
  .next
    (match stepEndReached s c with
     | some (b, f) =>
       if f.watch.isSome then
         arbitrate
           (endStep (submit s (.stepTimeout c (f.entry.map Entry.number) f.stepIndex)) c b f
             f.stepEnd)
       else s
     | none => s)

/-! ## Edges -/

/-- The point at which an offered edge ends the running step, with the firing and its binding: the
watch names its input and kind, and its stamp is not before the step began (R36, log 13). -/
def edgeEndsStep (ch : Channel) (o : Offer) : Option (Binding × Firing × Word) :=
  match ch.active, ch.firing with
  | some b, some f =>
    let a := pointOfStamp ch o.stamp
    if ch.inService && f.watch = some { input := o.input, edge := o.edge } &&
        atOrAfter a f.stepStart then some (b, f, a)
    else none
  | _, _ => none

/-- A channel takes an offered edge (R36). -/
def takeOffer (s : State) (c : Fin 8) (o : Offer) : State :=
  match edgeEndsStep (s.chan c) o with
  | some (b, f, a) => endStep s c b f a
  | none => s

/-- HOLD_UNTIL_EDGE (R36): the channel takes the oldest edge offered to it. -/
def execHoldUntilEdge (c : Fin 8) (s : State) : Host.Outcome State Fault Refusal :=
  .next
    (match (s.chan c).offers with
     | [] => s
     | o :: rest => arbitrate (takeOffer (s.modChan c fun ch => { ch with offers := rest }) c o))

/-! ## Triggers -/

/-- A route trigger refused with MISSED (R53, R55, R71). A FORCED channel without a binding has no
base, and the trigger point it reports is a free value (log 10). -/
def refuseTrigger (s : State) (c : Fin 8) (t : Trigger) (cause : MissedCause) : State :=
  let source := Source.route t.route t.input t.edge
  match (s.chan c).active with
  | none =>
    submitMissed { s with freeCount := s.freeCount + 1 }
      { channel := c, cause := cause, count := 1, number := none, source := source,
        trigger := Config.freeWord s.freeCount, due := none }
  | some b =>
    let p := pointOfStamp (s.chan c) t.stamp
    submitMissed s
      { channel := c, cause := cause, count := 1, number := none, source := source, trigger := p,
        due := match b.mode with
               | .triggered => some (dueOf b p)
               | .continuous => none }

/-- A route trigger taken by a TRIGGERED channel in READY or RUNNING (R54, R55). -/
def acceptTrigger (s : State) (c : Fin 8) (b : Binding) (t : Trigger) : State :=
  if Config.firingQueueSize ≤ (s.chan c).queue.length then refuseTrigger s c t .queueFull
  else
    let p := pointOfStamp (s.chan c) t.stamp
    createEntry s c (.route t.route t.input t.edge) p (dueOf b p)

/-- A channel takes a route trigger by its state (R53). -/
def takeTrigger (s : State) (c : Fin 8) (t : Trigger) : State :=
  let ch := s.chan c
  match ch.state with
  | .off => s
  | .forced => refuseTrigger s c t .cutoff
  | .draining => refuseTrigger s c t .stopping
  | .ready | .running =>
    match ch.active with
    | none => s
    | some b =>
      match b.mode with
      | .triggered => acceptTrigger s c b t
      | .continuous => refuseTrigger s c t .mode

/-- ROUTE_TRIGGER (R53 to R55): the channel takes the oldest trigger delivered to it. -/
def execRouteTrigger (c : Fin 8) (s : State) : Host.Outcome State Fault Refusal :=
  .next
    (match (s.chan c).triggers with
     | [] => s
     | t :: rest =>
       arbitrate (takeTrigger (s.modChan c fun ch => { ch with triggers := rest }) c t))

/-! ## Stall notices -/

/-- A LINE-bound channel acts on a stall by its stall action (R39 to R41): under ABORT a firing is
aborted at the line point of the event and the examination follows, and a pass ends with the
channel OFF. -/
def actOnStall (s : State) (c : Fin 8) : State :=
  let ch := s.chan c
  match ch.active, ch.firing with
  | some b, some f =>
    if ch.inService && b.base = .line && b.stall = .abort then
      match b.mode with
      | .triggered => examineEnd (endFiring s c f (chanNow s c) .abortedStall) c (chanNow s c)
      | .continuous => leaveService (discardPending (clearFiring s c) c) c .stall
    else s
  | _, _ => s

/-- STALL_NOTICE (R39 to R41): the channel takes a stall notice handed to it. -/
def execStallNotice (c : Fin 8) (s : State) : Host.Outcome State Fault Refusal :=
  .next
    (if (s.chan c).stallNotices = 0 then s
     else
      arbitrate
        (actOnStall (s.modChan c fun ch => { ch with stallNotices := ch.stallNotices - 1 }) c))

/-! ## Presets -/

/-- An entry moved by a preset offset (R68). -/
def Entry.shift (k : Word) (e : Entry) : Entry :=
  { e with trigger := e.trigger + k, due := e.due + k }

/-- A firing in progress moved by a preset offset; its lateness stays (R68). -/
def Firing.shift (k : Word) (f : Firing) : Firing :=
  { f with entry := f.entry.map (Entry.shift k), start := f.start + k,
           stepStart := f.stepStart + k, stepEnd := f.stepEnd + k }

/-- A channel takes a preset with offset k: a LINE-bound channel moves all its points (R68), and
its presets taken count and its coordinates move with it (R69, R98). -/
def takePreset (k : Word) (ch : Channel) : Channel :=
  let moved := { ch with presetsTaken := ch.presetsTaken + 1, coords := ch.coords + k }
  if ch.lineBound then
    { moved with queue := ch.queue.map (Entry.shift k), firing := ch.firing.map (Firing.shift k) }
  else moved

/-- LINE_PRESET_TAKEN (R68, R69): the channel takes the oldest preset handed to it. -/
def execLinePresetTaken (c : Fin 8) (s : State) : Host.Outcome State Fault Refusal :=
  .next
    (match (s.chan c).presets with
     | [] => s
     | k :: rest => s.modChan c fun ch => takePreset k { ch with presets := rest })

end Sys2Proof.Machine
end

