-- ==== Sys2Proof/Decode.lean ====
section
/-! DEFINITION. The rows of spec/opcode_table.json give no bits, so no word spells a command. What
the spec does encode is the KIND of a request frame (section 10.1): `commandOfKind` is the row that
executes a request of that KIND, and `kindOfCommand` the KIND a request row executes. -/

namespace Sys2Proof

/-- The command a word spells by the table's bits: none, since no row has bits. -/
def decodeTableWord (_nbits _w : Nat) : Option Instr := none

/-- The row that executes a request of this KIND; a KIND that names no request is answered by
REJECT (section 10.1, R146). -/
def commandOfKind (k : Byte) : Instr :=
  match k.toNat with
  | 0x01 => .ident
  | 0x02 => .status
  | 0x03 => .openSession
  | 0x04 => .closeSession
  | 0x05 => .ackReports
  | 0x06 => .restart
  | 0x08 => .cutoff
  | 0x09 => .cutoffRelease
  | 0x0A => .setChannelOptions
  | 0x10 => .defineProgram
  | 0x11 => .appendSteps
  | 0x12 => .sealProgram
  | 0x13 => .discardProgram
  | 0x14 => .deleteProgram
  | 0x15 => .programInfo
  | 0x16 => .programRead
  | 0x20 => .bind
  | 0x21 => .enable
  | 0x22 => .stop
  | 0x23 => .halt
  | 0x24 => .fire
  | 0x25 => .channelStatus
  | 0x28 => .timebaseConfig
  | 0x29 => .setLine
  | 0x2A => .readTime
  | 0x30 => .captureConfig
  | 0x31 => .routeAdd
  | 0x32 => .routeRemove
  | 0x33 => .routeList
  | 0x34 => .readCaptures
  | 0x35 => .captureStream
  | _ => .reject

/-- The KIND of the requests a request row executes; none for REJECT, which executes every KIND
that names no request, and for the rows that are no requests (section 10.1). -/
def kindOfCommand (i : Instr) : Option Byte :=
  match i with
  | .ident => some 0x01
  | .status => some 0x02
  | .openSession => some 0x03
  | .closeSession => some 0x04
  | .ackReports => some 0x05
  | .restart => some 0x06
  | .cutoff => some 0x08
  | .cutoffRelease => some 0x09
  | .setChannelOptions => some 0x0A
  | .defineProgram => some 0x10
  | .appendSteps => some 0x11
  | .sealProgram => some 0x12
  | .discardProgram => some 0x13
  | .deleteProgram => some 0x14
  | .programInfo => some 0x15
  | .programRead => some 0x16
  | .bind => some 0x20
  | .enable => some 0x21
  | .stop => some 0x22
  | .halt => some 0x23
  | .fire => some 0x24
  | .channelStatus => some 0x25
  | .timebaseConfig => some 0x28
  | .setLine => some 0x29
  | .readTime => some 0x2A
  | .captureConfig => some 0x30
  | .routeAdd => some 0x31
  | .routeRemove => some 0x32
  | .routeList => some 0x33
  | .readCaptures => some 0x34
  | .captureStream => some 0x35
  | _ => none

/-- A KIND that names no request: outside 01h..3Fh, or assigned to no request (R146). -/
def namesNoRequest (k : Byte) : Bool := commandOfKind k = .reject

end Sys2Proof
end

