-- ==== Sys2Proof/Machine/RequestPath.lean ====
section
/-! DEFINITION. The request path (R145 to R149): the head request leaves the queue, is executed in
one event, and its reply is queued, cached and offered to the arbiter. -/

namespace Sys2Proof.Machine

/-- Whether the head request may be executed: start-up has ended, the reply queue has room and
restart is not pending (R146, R155). -/
def canExecute (s : State) : Bool :=
  !s.startUp && decide (s.link.replyQueue.length < Config.replyQueueSize) &&
    !s.link.restartPending

/-- The head request, when it may be executed and its KIND is one of `mine`, with the state in
which it has left the queue (R145, R146). -/
def takeRequest (mine : Byte → Bool) (s : State) : Option (Request × State) :=
  match s.link.requestQueue with
  | [] => none
  | r :: rest =>
    if canExecute s && mine r.kind then
      some (r, { s with link := { s.link with requestQueue := rest } })
    else none

/-- The cache with the reply of a request entered as the newest: an entry of the same tag is
replaced, else the oldest of 8 makes room (R149). -/
def cacheReply (r : Request) (f : Frame) (cache : List CacheEntry) : List CacheEntry :=
  let e : CacheEntry := { tag := r.tag, crc := r.crc, reply := f }
  let others := cache.filter fun x => x.tag ≠ r.tag
  if others.length < cache.length then others ++ [e]
  else if Config.replyCacheSize ≤ cache.length then cache.tail ++ [e]
  else cache ++ [e]

/-- The end of a request's execution: its reply enters the reply queue, and the cache when the
session is OPEN; then the arbiter chooses (R146 steps 3 and 4, R148, R149, R152). -/
def concludeRequest (r : Request) (f : Frame) (s : State) : State :=
  arbitrateEither
    { s with
      link :=
        { s.link with
          replyQueue := s.link.replyQueue ++ [f]
          cache := if s.session.state = .opened then cacheReply r f s.link.cache
                   else s.link.cache } }

/-- The reply frame of a request: its KIND plus 80h, its TAG, the answer (R146). -/
def replyFrame (r : Request) (a : Answer) : Frame :=
  { kind := r.kind + 0x80, tag := r.tag, payload := a.payload }

/-- The execution of the head request when its KIND is `kind` (R146). Where there is no such request
to execute, nothing happens (log 2). -/
def serveRequest (kind : Byte) (answer : State → List Byte → Answer × State) (s : State) : State :=
  match takeRequest (· == kind) s with
  | none => s
  | some (r, s0) =>
    let a := answer s0 r.payload
    concludeRequest r (replyFrame r a.1) a.2

/-- A request that needs an OPEN session, checked after its length (R147): under NO_SESSION the n
fields after the flags byte are 0. -/
def inSession (s : State) (n : Nat) (k : Answer × State) : Answer × State :=
  if s.session.state = .closed then (refusal .noSession n, s) else k

end Sys2Proof.Machine
end

