-- ==== Sys2Proof/Machine/ChannelRequests.lean ====
section
/-! DEFINITION. The channel requests BIND, ENABLE, STOP, HALT, FIRE and CHANNEL_STATUS (chapters 2
to 4). -/

namespace Sys2Proof.Machine

/-- The answer of ENABLE, STOP and HALT: the channel's state as it stands (R23). -/
def stateAnswer (s : State) (c : Fin 8) (r : Result) : Answer :=
  { result := r, fields := [(s.chan c).state.code] }

/-- A channel request whose payload is the channel number: the checks of R23, with n reply fields
after the flags byte. -/
def channelRequest (n : Nat) (k : State → Fin 8 → Answer × State) (s : State)
    (payload : List Byte) : Answer × State :=
  match payload with
  | [ch] =>
    inSession s n <|
      match channelOf ch with
      | none => (refusal .badValue n, s)
      | some c => k s c
  | _ => (refusal .badLength n, s)

/-! ## ENABLE -/

/-- ENABLE of a channel (R24). -/
def enableChannel (s : State) (c : Fin 8) : Answer × State :=
  let ch := s.chan c
  if ch.member ∧ s.cutoff.latch = .tripped then (stateAnswer s c .cutoffActive, s)
  else if ch.state ≠ .off then (stateAnswer s c .state, s)
  else
    match ch.active with
    | none => (stateAnswer s c .state, s)
    | some b =>
      let s1 :=
        match b.mode with
        | .triggered => s.modChan c fun ch => { ch with state := .ready, output := b.idle }
        | .continuous =>
          startPass (s.modChan c fun ch => { ch with state := .running }) c b (chanNow s c)
      (stateAnswer s1 c .ok, s1)

/-- ENABLE (R24). -/
def execEnable (s : State) : Host.Outcome State Fault Refusal :=
  .next (serveRequest 0x21 (channelRequest 1 enableChannel) s)

/-! ## STOP -/

/-- STOP of a channel (R25, R26). -/
def stopChannel (s : State) (c : Fin 8) : Answer × State :=
  match (s.chan c).state with
  | .forced => (stateAnswer s c .cutoffActive, s)
  | .off => (stateAnswer s c .ok, s)
  | .draining => (stateAnswer s c .ok, s)
  | .ready =>
    let s1 := (flushQueue s c .stopping).modChan c fun ch => { ch with state := .off }
    (stateAnswer s1 c .ok, s1)
  | .running =>
    let s1 := s.modChan c fun ch => { ch with state := .draining }
    (stateAnswer s1 c .ok, s1)

/-- STOP (R25, R26). -/
def execStop (s : State) : Host.Outcome State Fault Refusal :=
  .next (serveRequest 0x22 (channelRequest 1 stopChannel) s)

/-! ## HALT -/

/-- HALT of a channel (R27). -/
def haltRequest (s : State) (c : Fin 8) : Answer × State :=
  if (s.chan c).state = .forced then (stateAnswer s c .cutoffActive, s)
  else if (s.chan c).haltable then
    let s1 := haltChannel s c
    (stateAnswer s1 c .ok, s1)
  else (stateAnswer s c .ok, s)

/-- HALT (R27). -/
def execHalt (s : State) : Host.Outcome State Fault Refusal :=
  .next (serveRequest 0x23 (channelRequest 1 haltRequest) s)

/-! ## FIRE -/

/-- The answer to a refused FIRE: number and due point 0, the queue length as it stands (R58). -/
def fireRefused (s : State) (c : Fin 8) (r : Result) : Answer :=
  { result := r, fields := List.replicate 6 0 ++ [byteOf (s.chan c).queue.length] }

/-- Whether FIRE finds a channel that takes triggers: READY, or RUNNING with a TRIGGERED binding
(R56 check 2). -/
def takesFire (ch : Channel) (b : Binding) : Bool :=
  ch.state = .ready || (ch.state = .running && b.mode = .triggered)

/-- Check 3 of FIRE and the due point it gives: none for a due point refused, with the result
(R56, R57, R175). -/
def fireDue (b : Binding) (now : Word) (presence : Byte) (due : Word) : Except Result Word :=
  match boolOf presence with
  | none => .error .badValue
  | some false => .ok (dueOf b now)
  | some true =>
    if !atOrAfter due now then .error .past
    else if Config.horizon < (due - now).toNat then .error .badValue
    else .ok due

/-- FIRE of a channel (R56, R57, R58). -/
def fireChannel (s : State) (c : Fin 8) (tag : Half) (presence : Byte) (due : Word) :
    Answer × State :=
  let ch := s.chan c
  if ch.state = .forced then (fireRefused s c .cutoffActive, s)
  else
    match ch.active with
    | none => (fireRefused s c .state, s)
    | some b =>
      if !takesFire ch b then (fireRefused s c .state, s)
      else
        match fireDue b (chanNow s c) presence due with
        | .error r => (fireRefused s c r, s)
        | .ok d =>
          if Config.firingQueueSize ≤ ch.queue.length then (fireRefused s c .noSpace, s)
          else
            let s1 := createEntry s c (.host tag) (chanNow s c) d
            ({ result := .ok
               fields := le16 ch.nextNumber ++ le32 d ++ [byteOf (s1.chan c).queue.length] }, s1)

/-- The answer to FIRE (R56, section 10.4). -/
def answerFire (s : State) (payload : List Byte) : Answer × State :=
  match payload with
  | [ch, t0, t1, presence, d0, d1, d2, d3] =>
    inSession s 7 <|
      match channelOf ch with
      | none => (refusal .badValue 7, s)
      | some c => fireChannel s c (read16 t0 t1) presence (read32 d0 d1 d2 d3)
  | _ => (refusal .badLength 7, s)

/-- FIRE (R56 to R58). -/
def execFire (s : State) : Host.Outcome State Fault Refusal :=
  .next (serveRequest 0x24 answerFire s)

/-! ## CHANNEL_STATUS -/

/-- A binding as it is reported, 12 zero bytes when absent (R177, section 10.3). -/
def bindingBytes (b : Option Binding) : List Byte :=
  match b with
  | none => List.replicate 12 0
  | some b => b.bytes

/-- The program id of a binding, 0 when absent (R74, section 10.5). -/
def bindingProgram (b : Option Binding) : Byte :=
  match b with
  | none => 0
  | some b => programCode b.program

/-- The firing number of a firing in progress (R46). -/
def Channel.firingNumber (ch : Channel) : Option Half :=
  (ch.firing.bind Firing.entry).map Entry.number

/-- The reply of CHANNEL_STATUS (R46, section 10.5). -/
def channelStatus (ch : Channel) : Answer :=
  let head := ch.queue.head?.map Entry.due
  { result := .ok
    fields :=
      [ch.state.code, levelCode ch.output,
       bitSet [ch.active.isSome, ch.pending.isSome, head.isSome, ch.firing.isSome,
               ch.firingNumber.isSome]] ++
      bindingBytes ch.active ++
      [bindingProgram ch.pending, byteOf ch.queue.length] ++
      orZero32 head ++ orZero16 ch.firingNumber ++
      [byteOf ((ch.firing.map Firing.stepIndex).getD 0)] ++
      orZero16 (ch.firing.map Firing.loopRuns) ++
      [boolCode ch.member, levelCode ch.safeLevel] ++
      le16 ch.accepted ++ le16 ch.completed ++ le16 ch.aborted ++ le16 ch.missed ++
      le16 ch.nextNumber }

/-- CHANNEL_STATUS (R46). -/
def execChannelStatus (s : State) : Host.Outcome State Fault Refusal :=
  .next (serveRequest 0x25 (channelRequest 38 fun s c => (channelStatus (s.chan c), s)) s)

/-! ## BIND -/

/-- The answer to BIND: the state and the two program ids as they stand (R74). -/
def bindAnswer (s : State) (c : Fin 8) (r : Result) : Answer :=
  let ch := s.chan c
  { result := r, fields := [ch.state.code, bindingProgram ch.active, bindingProgram ch.pending] }

/-- Installation of a binding on an OFF channel (R75). A channel that becomes LINE-bound starts in
the coordinates of the line base (R98; log 6, log 27). -/
def installBinding (s : State) (c : Fin 8) (b : Binding) : State :=
  let ch := s.chan c
  let s1 := releaseUse (raiseUse s b.program) ch.active
  let s2 := s1.modChan c fun ch => { ch with active := some b, output := b.idle }
  if b.base = .line ∧ ch.lineBound = false then
    s2.modChan c fun ch =>
      { ch with presetsTaken := s.line.presetsMade, coords := s.line.offsetSum, presets := [] }
  else s2

/-- Removal of the active binding of an OFF channel (R75). -/
def removeBinding (s : State) (c : Fin 8) : State :=
  (releaseUse s (s.chan c).active).modChan c fun ch => { ch with active := none, output := .low }

/-- Whether a staged binding is applied in the request: READY, or DRAINING in TRIGGERED mode with no
firing in progress (R76, R79). -/
def appliesAtOnce (ch : Channel) (b : Binding) : Bool :=
  ch.state = .ready || (ch.state = .draining && b.mode = .triggered && ch.firing.isNone)

/-- Staging of a binding on a channel in service, applied in the same event where no firing is in
progress (R76, R78, R79, R80). -/
def stageBinding (s : State) (c : Fin 8) (b : Binding) : State :=
  let ch := s.chan c
  let s1 := (releaseUse (raiseUse s b.program) ch.pending).modChan c fun ch =>
    { ch with pending := some b }
  if appliesAtOnce ch b then
    (applyPending s1 c).modChan c fun ch => { ch with output := ch.idleLevel }
  else s1

/-- Whether a carried binding keeps the base and mode of the active binding (R73 check 5). -/
def keepsBase (active : Option Binding) (b : Binding) : Bool :=
  match active with
  | some a => a.base = b.base && a.mode = b.mode
  | none => false

/-- BIND of a channel with a binding whose fields are in range: checks 2 to 5 of R73 and the effect
(R73, R75, R76). -/
def bindProgram (s : State) (c : Fin 8) (b : Binding) : Answer × State :=
  let ch := s.chan c
  let p := s.prog b.program
  if p.state ≠ .sealed then (bindAnswer s c .notFound, s)
  else if b.mode = .triggered ∧ p.loopCount = 0 then (bindAnswer s c .endless, s)
  else if ch.state = .forced then (bindAnswer s c .cutoffActive, s)
  else if ch.state = .off then
    (bindAnswer (installBinding s c b) c .ok, installBinding s c b)
  else if !keepsBase ch.active b then (bindAnswer s c .baseChange, s)
  else (bindAnswer (stageBinding s c b) c .ok, stageBinding s c b)

/-- BIND with program id 0: removal in OFF, withdrawal in service (R75, R77). -/
def bindNothing (s : State) (c : Fin 8) : Answer × State :=
  match (s.chan c).state with
  | .forced => (bindAnswer s c .cutoffActive, s)
  | .off => (bindAnswer (removeBinding s c) c .ok, removeBinding s c)
  | _ => (bindAnswer (discardPending s c) c .ok, discardPending s c)

/-- The answer to BIND (R73, R74, section 10.4). -/
def answerBind (s : State) (payload : List Byte) : Answer × State :=
  match payload with
  | [ch, id, base, mode, idle, overlap, stall, d0, d1, d2, d3, l0, l1] =>
    inSession s 3 <|
      match channelOf ch with
      | none => (refusal .badValue 3, s)
      | some c =>
        if id = 0 then bindNothing s c
        else
          match programOf id with
          | none => (bindAnswer s c .badValue, s)
          | some q =>
            match bindingOf q base mode idle overlap stall (read32 d0 d1 d2 d3) (read16 l0 l1) with
            | none => (bindAnswer s c .badValue, s)
            | some b => bindProgram s c b
  | _ => (refusal .badLength 3, s)

/-- BIND (R73 to R80). -/
def execBind (s : State) : Host.Outcome State Fault Refusal :=
  .next (serveRequest 0x20 answerBind s)

end Sys2Proof.Machine
end

