-- ==== Sys2Proof/Machine/CaptureUnit.lean ====
section
/-! DEFINITION. The capture unit (chapter 6): edges, the route table, the capture log and its
requests. -/

namespace Sys2Proof.Machine

/-- The 16 route ids in increasing order. -/
def allRoutes : List (Fin 16) := List.finRange 16

/-- The four capture inputs. -/
def allInputs : List (Fin 4) := [0, 1, 2, 3]

/-- The record of an input (R103). -/
def State.input (s : State) (i : Fin 4) : CapInput := s.capture.inputs[i]

/-- The state with another record for one input. -/
def State.setInput (s : State) (i : Fin 4) (r : CapInput) : State :=
  { s with capture := { s.capture with inputs := s.capture.inputs.set i r } }

/-- The route at an id, if the id is not free (R113). -/
def State.route (s : State) (id : Fin 16) : Option Route := s.capture.routes[id]

/-- The state with another content at one route id. -/
def State.setRoute (s : State) (id : Fin 16) (r : Option Route) : State :=
  { s with capture := { s.capture with routes := s.capture.routes.set id r } }

/-! ## The log -/

/-- What an edge logs: the kind, the value and SATURATED of its entry. -/
structure Logged where
  kind : CapKind
  value : BitVec 24
  saturated : Bool
  deriving DecidableEq, Repr

/-- The value of a measurement: the exact count, or 16,777,215 with SATURATED when the count has
reached 16,777,216 (R110). -/
def measured (kind : CapKind) (m : Measure) : Logged :=
  if Config.measureLimit ≤ m.elapsed then
    { kind := kind, value := BitVec.ofNat 24 16777215, saturated := true }
  else { kind := kind, value := BitVec.ofNat 24 m.elapsed, saturated := false }

/-- Whether EDGES mode logs an edge of this kind (R107). -/
def LogEdges.selects (l : LogEdges) (e : Edge) : Bool :=
  match l, e with
  | .both, _ => true
  | .rise, .rise => true
  | .fall, .fall => true
  | _, _ => false

/-- The entry kind of an edge logged in EDGES mode (R107). -/
def Edge.capKind (e : Edge) : CapKind :=
  match e with
  | .rise => .rise
  | .fall => .fall

/-- A WIDTH mode: the opening edge sets the measurement start, the closing edge logs and clears it
(R108). -/
def measureWidth (kind : CapKind) (opening : Edge) (now : Word) (e : Edge) (i : CapInput) :
    Option Logged × CapInput :=
  if e = opening then (none, { i with measure := some { start := now, elapsed := 0 } })
  else (i.measure.map (measured kind), { i with measure := none })

/-- A PERIOD mode: each timed edge logs the open measurement and starts the next (R109). -/
def measurePeriod (timed : Edge) (now : Word) (e : Edge) (i : CapInput) :
    Option Logged × CapInput :=
  if e = timed then
    (i.measure.map (measured .period), { i with measure := some { start := now, elapsed := 0 } })
  else (none, i)

/-- What an accepted edge logs under the input's mode, and the input after it (R107 to R109). -/
def offerToLog (now : Word) (e : Edge) (i : CapInput) : Option Logged × CapInput :=
  match i.mode with
  | .off => (none, i)
  | .edges =>
    (if i.logEdges.selects e then some { kind := e.capKind, value := 0, saturated := false }
     else none, i)
  | .widthHigh => measureWidth .widthHigh .rise now e i
  | .widthLow => measureWidth .widthLow .fall now e i
  | .periodRise => measurePeriod .rise now e i
  | .periodFall => measurePeriod .fall now e i

/-- A logged event takes the next number; a full log drops it and counts the drop (R119, R120). -/
def Capture.record (cap : Capture) (input : Fin 4) (l : Logged) (time line : Word) : Capture :=
  if Config.captureLogSize ≤ cap.log.length then
    { cap with nextNumber := cap.nextNumber + 1, dropCount := cap.dropCount.satSucc,
               lastDropped := some input }
  else
    { cap with
      log := cap.log ++
        [{ number := cap.nextNumber, input := input, kind := l.kind, time := time, line := line,
           value := l.value, saturated := l.saturated }]
      nextNumber := cap.nextNumber + 1 }

/-- An event is logged; an entry kept while streaming is on is offered to the report queue (R119,
R120, R125). -/
def logEvent (s : State) (input : Fin 4) (l : Logged) : State :=
  let s1 := { s with capture := s.capture.record input l s.timeBase s.line.lineBase }
  if Config.captureLogSize ≤ s.capture.log.length then s1 else tryMoves s1

/-! ## Accepted edges -/

/-- Whether a route's edge is the edge's kind or BOTH (R113). -/
def RouteEdge.covers (r : RouteEdge) (e : Edge) : Bool :=
  match r, e with
  | .both, _ => true
  | .rise, .rise => true
  | .fall, .fall => true
  | _, _ => false

/-- Whether a route matches an edge of an input (R113). -/
def Route.matchesEdge (r : Route) (input : Fin 4) (e : Edge) : Bool :=
  r.input = input && r.edge.covers e

/-- The trigger of one route, delivered to its channel when the route matches (R117). -/
def deliverRoute (input : Fin 4) (e : Edge) (s : State) (id : Fin 16) : State :=
  match s.route id with
  | some r =>
    if r.matchesEdge input e then
      s.modChan r.channel fun ch =>
        { ch with triggers := ch.triggers ++
            [{ route := id, input := input, edge := e, stamp := stampNow s }] }
    else s
  | none => s

/-- The edge is offered to one channel when its armed watch names the input (R118). -/
def offerEdge (input : Fin 4) (e : Edge) (s : State) (c : Fin 8) : State :=
  match (s.chan c).firing.bind Firing.watch with
  | some w =>
    if w.input = input then
      s.modChan c fun ch =>
        { ch with offers := ch.offers ++ [{ input := input, edge := e, stamp := stampNow s }] }
    else s
  | none => s

/-- An edge to `level` is accepted on an input: the accepted level moves, and the edge is offered
to the log, delivered along the routes in route id order and offered to the watches (R104 to
R106). -/
def acceptEdge (s : State) (i : Fin 4) (level : Level) : State :=
  let e := edgeTo level
  let o := offerToLog s.timeBase e { s.input i with level := some level, candidate := none }
  let s1 := s.setInput i o.2
  let s2 :=
    match o.1 with
    | some l => logEvent s1 i l
    | none => s1
  allChannels.foldl (offerEdge i e) (allRoutes.foldl (deliverRoute i e) s2)

/-- The level at which an input's candidate is complete, in a mode other than OFF (R104). -/
def inputChange (i : CapInput) : Option Level :=
  if i.mode = .off then none else acceptedChange i.candidate i.filter.toNat

/-- CAPTURE_EDGE (R104 to R106): the input's complete candidate is accepted. -/
def execCaptureEdge (i : Fin 4) (s : State) : Host.Outcome State Fault Refusal :=
  .next
    (match inputChange (s.input i) with
     | some level => arbitrate (acceptEdge s i level)
     | none => s)

/-! ## CAPTURE_CONFIG -/

/-- The input after CAPTURE_CONFIG, before a completed candidate is accepted: the fields carried,
the measurement re-primed, and the acceptance state by the change of mode (R111). -/
def configureInput (i : CapInput) (mode : CapMode) (logEdges : LogEdges) (filter : BitVec 4)
    (pin : Level) : CapInput :=
  let i1 := { i with mode := mode, logEdges := logEdges, filter := filter, measure := none }
  if mode = .off then { i1 with level := none, candidate := none }
  else if i.mode = .off then { i1 with level := some pin, candidate := none }
  else i1

/-- The reply fields of CAPTURE_CONFIG (R111). -/
def inputAnswer (i : CapInput) (r : Result) : Answer :=
  { result := r, fields := [i.mode.code, i.logEdges.code, byteOf i.filter.toNat] }

/-- CAPTURE_CONFIG of an input with fields in range (R111). -/
def configureCapture (s : State) (i : Fin 4) (mode : CapMode) (logEdges : LogEdges)
    (filter : BitVec 4) : State :=
  let r := configureInput (s.input i) mode logEdges filter s.pins.cap[i]
  let s1 := s.setInput i r
  match inputChange r with
  | some level => acceptEdge s1 i level
  | none => s1

/-- The answer to CAPTURE_CONFIG (R111). -/
def answerCaptureConfig (s : State) (payload : List Byte) : Answer × State :=
  match payload with
  | [input, mode, logEdges, filter] =>
    inSession s 3 <|
      match inputOf input with
      | none => (refusal .badValue 3, s)
      | some i =>
        match capModeOf mode, logEdgesOf logEdges, filterOf filter with
        | some m, some l, some f =>
          (inputAnswer ((configureCapture s i m l f).input i) .ok, configureCapture s i m l f)
        | _, _, _ => (inputAnswer (s.input i) .badValue, s)
  | _ => (refusal .badLength 3, s)

/-- CAPTURE_CONFIG (R111). -/
def execCaptureConfig (s : State) : Host.Outcome State Fault Refusal :=
  .next (serveRequest 0x30 answerCaptureConfig s)

/-! ## Routes -/

/-- The number of routes (R113). -/
def routeCount (s : State) : Nat := allRoutes.countP fun id => (s.route id).isSome

/-- The id that holds a given route (R114). -/
def findRoute (s : State) (r : Route) : Option (Fin 16) :=
  allRoutes.find? fun id => s.route id = some r

/-- The lowest free route id (R114). -/
def freeRoute (s : State) : Option (Fin 16) := allRoutes.find? fun id => (s.route id).isNone

/-- The reply fields of ROUTE_ADD (R114). -/
def routeAnswer (s : State) (r : Result) (id : Nat) : Answer :=
  { result := r, fields := [byteOf id, byteOf (routeCount s)] }

/-- ROUTE_ADD of a route with fields in range (R114). -/
def addRoute (s : State) (r : Route) : Answer × State :=
  match findRoute s r with
  | some id => (routeAnswer s .duplicate id.val, s)
  | none =>
    match freeRoute s with
    | none => (routeAnswer s .noSpace 0xFF, s)
    | some id => (routeAnswer (s.setRoute id (some r)) .ok id.val, s.setRoute id (some r))

/-- The answer to ROUTE_ADD (R114). -/
def answerRouteAdd (s : State) (payload : List Byte) : Answer × State :=
  match payload with
  | [input, edge, channel] =>
    inSession s 2 <|
      match inputOf input, routeEdgeOf edge, channelOf channel with
      | some i, some e, some c => addRoute s { input := i, edge := e, channel := c }
      | _, _, _ => (routeAnswer s .badValue 0xFF, s)
  | _ => (refusal .badLength 2, s)

/-- ROUTE_ADD (R114). -/
def execRouteAdd (s : State) : Host.Outcome State Fault Refusal :=
  .next (serveRequest 0x31 answerRouteAdd s)

/-- The reply of ROUTE_REMOVE: the number of routes (R115). -/
def routesLeft (s : State) (r : Result) : Answer :=
  { result := r, fields := [byteOf (routeCount s)] }

/-- The answer to ROUTE_REMOVE (R115). -/
def answerRouteRemove (s : State) (payload : List Byte) : Answer × State :=
  match payload with
  | [id] =>
    inSession s 1 <|
      match routeIdOf id with
      | none => (routesLeft s .badValue, s)
      | some id =>
        if (s.route id).isNone then (routesLeft s .notFound, s)
        else (routesLeft (s.setRoute id none) .ok, s.setRoute id none)
  | _ => (refusal .badLength 1, s)

/-- ROUTE_REMOVE (R115). -/
def execRouteRemove (s : State) : Host.Outcome State Fault Refusal :=
  .next (serveRequest 0x32 answerRouteRemove s)

/-- A route as it is listed (R116, section 10.5); nothing for a free id. -/
def routeBytes (s : State) (id : Fin 16) : List Byte :=
  match s.route id with
  | some r => [byteOf id.val, byteOf r.input.val, r.edge.code, byteOf r.channel.val]
  | none => []

/-- The answer to ROUTE_LIST (R116). -/
def answerRouteList (s : State) (payload : List Byte) : Answer × State :=
  match payload with
  | [] =>
    inSession s 1
      ({ result := .ok, fields := byteOf (routeCount s) :: allRoutes.flatMap (routeBytes s) }, s)
  | _ => (refusal .badLength 1, s)

/-- ROUTE_LIST (R116). -/
def execRouteList (s : State) : Host.Outcome State Fault Refusal :=
  .next (serveRequest 0x33 answerRouteList s)

/-! ## READ_CAPTURES and CAPTURE_STREAM -/

/-- READ_CAPTURES with a maximum count in range and streaming off (R121, R123): the oldest entries
leave, and a GAP entry follows when entries have left and the drop count is above 0. -/
def readCaptures (s : State) (maximum : Nat) : Answer × State :=
  let out := s.capture.log.take maximum
  let cap0 := { s.capture with log := s.capture.log.drop maximum }
  let cap := cap0.appendGap s.timeBase s.line.lineBase
  ({ result := .ok
     fields := [byteOf out.length, byteOf cap.log.length] ++ le16 cap.dropCount ++
       out.flatMap CapEntry.bytes }, { s with capture := cap })

/-- The answer to READ_CAPTURES (R123). -/
def answerReadCaptures (s : State) (payload : List Byte) : Answer × State :=
  match payload with
  | [maximum] =>
    inSession s 4 <|
      if maximum.toNat = 0 ∨ 16 < maximum.toNat then (refusal .badValue 4, s)
      else if s.capture.streaming then
        ({ result := .streaming
           fields := [0, byteOf s.capture.log.length] ++ le16 s.capture.dropCount }, s)
      else readCaptures s maximum.toNat
  | _ => (refusal .badLength 4, s)

/-- READ_CAPTURES (R123). -/
def execReadCaptures (s : State) : Host.Outcome State Fault Refusal :=
  .next (serveRequest 0x34 answerReadCaptures s)

/-- CAPTURE_STREAM with a setting in range (R124): turning it on makes the log begin its moves in
the same event. -/
def setStreaming (s : State) (on : Bool) : State :=
  let s1 := { s with capture := { s.capture with streaming := on } }
  if on && !s.capture.streaming then tryMoves s1 else s1

/-- The answer to CAPTURE_STREAM (R124). The reply fields under BAD_VALUE are 0 (log 31). -/
def answerCaptureStream (s : State) (payload : List Byte) : Answer × State :=
  match payload with
  | [setting] =>
    inSession s 2 <|
      match boolOf setting with
      | none => (refusal .badValue 2, s)
      | some on =>
        let s1 := setStreaming s on
        ({ result := .ok
           fields := [boolCode s1.capture.streaming, byteOf s1.capture.log.length] }, s1)
  | _ => (refusal .badLength 2, s)

/-- CAPTURE_STREAM (R124). -/
def execCaptureStream (s : State) : Host.Outcome State Fault Refusal :=
  .next (serveRequest 0x35 answerCaptureStream s)

end Sys2Proof.Machine
end

