-- ==== Sys2Proof/Machine/CutoffUnit.lean ====
section
/-! DEFINITION. The cutoff unit (chapter 7): trips, the CUTOFF_N input, CUTOFF, CUTOFF_RELEASE and
SET_CHANNEL_OPTIONS. -/

namespace Sys2Proof.Machine

/-! ## Trips -/

/-- Whether a cause is in the set (R127). -/
def CauseSet.has (s : CauseSet) (c : CutoffCause) : Bool :=
  match c with
  | .pin => s.pin
  | .request => s.request
  | .silence => s.silence

/-- The set with a cause added (R135). -/
def CauseSet.add (s : CauseSet) (c : CutoffCause) : CauseSet :=
  match c with
  | .pin => { s with pin := true }
  | .request => { s with request := true }
  | .silence => { s with silence := true }

/-- One member channel is forced (R131). -/
def forceMember (s : State) (c : Fin 8) : State :=
  if (s.chan c).member then forceChannel s c else s

/-- Every member channel is forced, in increasing channel number (R131). -/
def forceMembers (s : State) : State := allChannels.foldl forceMember s

/-- A trip of the latch: from CLEAR it trips, reports and forces the members; when TRIPPED a new
cause is added and reported (R131, R135). -/
def trip (s : State) (cause : CutoffCause) : State :=
  match s.cutoff.latch with
  | .clear =>
    let causes := CauseSet.empty.add cause
    forceMembers
      (submit { s with cutoff := { s.cutoff with latch := .tripped, causes := causes } }
        (.cutoffTripped causes (memberSet s)))
  | .tripped =>
    if s.cutoff.causes.has cause then s
    else
      let causes := s.cutoff.causes.add cause
      submit { s with cutoff := { s.cutoff with causes := causes } }
        (.cutoffTripped causes (forcedSet s))

/-- The reply fields of CUTOFF and CUTOFF_RELEASE as they stand (R129, R136). -/
def cutoffAnswer (s : State) (r : Result) : Answer :=
  { result := r, fields := [s.cutoff.latch.code, s.cutoff.causes.code, forcedSet s] }

/-- The answer to CUTOFF (R129); it needs no session. -/
def answerCutoff (s : State) (payload : List Byte) : Answer × State :=
  match payload with
  | [] => (cutoffAnswer (trip s .request) .ok, trip s .request)
  | _ => (refusal .badLength 3, s)

/-- CUTOFF (R129). -/
def execCutoff (s : State) : Host.Outcome State Fault Refusal :=
  .next (serveRequest 0x08 answerCutoff s)

/-! ## The CUTOFF_N input -/

/-- CUTOFF_N_ASSERTION (R128): a complete candidate for LOW is accepted and the latch is tripped
with cause PIN. -/
def execCutoffNAssertion (s : State) : Host.Outcome State Fault Refusal :=
  .next
    (if acceptedChange s.cutoff.candidate Config.cutoffFilter = some .low then
      arbitrate (trip { s with cutoff := { s.cutoff with level := .low, candidate := none } } .pin)
    else s)

/-- CUTOFF_N_DEASSERTION (R128): a complete candidate for HIGH is accepted, and nothing else
changes. -/
def execCutoffNDeassertion (s : State) : Host.Outcome State Fault Refusal :=
  .next
    (if acceptedChange s.cutoff.candidate Config.cutoffFilter = some .high then
      { s with cutoff := { s.cutoff with level := .high, candidate := none } }
    else s)

/-! ## Release -/

/-- A FORCED channel goes to OFF, its output to the idle level, LOW without a binding (R136). -/
def releaseForced (ch : Channel) : Channel :=
  if ch.state = .forced then { ch with state := .off, output := ch.idleLevel } else ch

/-- The latch is cleared and the FORCED channels return to OFF (R136). -/
def releaseCutoff (s : State) : State :=
  submit
    { s with cutoff := { s.cutoff with latch := .clear, causes := CauseSet.empty }
             channels := s.channels.map releaseForced }
    (.cutoffReleased (forcedSet s))

/-- The answer to CUTOFF_RELEASE (R136). -/
def answerCutoffRelease (s : State) (payload : List Byte) : Answer × State :=
  match payload with
  | [] =>
    inSession s 3 <|
      if s.cutoff.level = .low then (cutoffAnswer s .cutoffActive, s)
      else
        match s.cutoff.latch with
        | .clear => (cutoffAnswer s .ok, s)
        | .tripped => (cutoffAnswer (releaseCutoff s) .ok, releaseCutoff s)
  | _ => (refusal .badLength 3, s)

/-- CUTOFF_RELEASE (R136). -/
def execCutoffRelease (s : State) : Host.Outcome State Fault Refusal :=
  .next (serveRequest 0x09 answerCutoffRelease s)

/-! ## Channel options -/

/-- The reply fields of SET_CHANNEL_OPTIONS as they stand (R137). -/
def optionsAnswer (s : State) (c : Fin 8) (r : Result) : Answer :=
  let ch := s.chan c
  { result := r, fields := [ch.state.code, boolCode ch.member, levelCode ch.safeLevel] }

/-- SET_CHANNEL_OPTIONS of a channel with fields in range (R137). -/
def setOptions (s : State) (c : Fin 8) (member : Bool) (safe : Level) : Answer × State :=
  if member ∧ s.cutoff.latch = .tripped then (optionsAnswer s c .cutoffActive, s)
  else if (s.chan c).state ≠ .off then (optionsAnswer s c .state, s)
  else
    let s1 := s.modChan c fun ch => { ch with member := member, safeLevel := safe }
    (optionsAnswer s1 c .ok, s1)

/-- The answer to SET_CHANNEL_OPTIONS (R137). -/
def answerSetChannelOptions (s : State) (payload : List Byte) : Answer × State :=
  match payload with
  | [ch, member, safe] =>
    inSession s 3 <|
      match channelOf ch with
      | none => (refusal .badValue 3, s)
      | some c =>
        match boolOf member, levelOf safe with
        | some m, some l => setOptions s c m l
        | _, _ => (optionsAnswer s c .badValue, s)
  | _ => (refusal .badLength 3, s)

/-- SET_CHANNEL_OPTIONS (R137). -/
def execSetChannelOptions (s : State) : Host.Outcome State Fault Refusal :=
  .next (serveRequest 0x0A answerSetChannelOptions s)

end Sys2Proof.Machine
end

