-- ==== Sys2Proof/Machine/ProgramStore.lean ====
section
/-! DEFINITION. The requests of the program store (chapter 1). -/

namespace Sys2Proof.Machine

/-- The 32 places of the program table in order of id. -/
def allPrograms : List (Fin 32) := List.finRange 32

/-- The program at a place becomes EMPTY and its slots return to the pool (R4, R10, R11, R16). -/
def emptyProgram (s : State) (q : Fin 32) : State :=
  let s1 := s.setProg q Program.none
  { s1 with store := { s1.store with
      freeSlots := s.store.freeSlots + (s.prog q).steps.length } }

/-- The OPEN program, if there is one, is discarded (R16, R17). -/
def discardOpen (s : State) : State :=
  allPrograms.foldl (fun s q => if (s.prog q).state = .opened then emptyProgram s q else s) s

/-- The place of the OPEN program, if there is one (R7, R15). -/
def openProgram (s : State) : Option (Fin 32) :=
  allPrograms.find? fun q => (s.prog q).state = .opened

/-- The number of SEALED programs (R15). -/
def sealedCount (s : State) : Nat := allPrograms.countP fun q => (s.prog q).state = .sealed

/-- The reply fields of a program-changing request: the detail byte and the free-slot count as it
stands (R5). -/
def storeAnswer (s : State) (r : Result) (detail : Nat) : Answer :=
  { result := r, fields := byteOf detail :: le16 (BitVec.ofNat 16 s.store.freeSlots) }

/-- The common checks of a program-changing request after its length: the session, then the program
id (R5, R6). -/
def changeProgram (s : State) (id : Byte) (k : Fin 32 → Answer × State) : Answer × State :=
  if s.session.state = .closed then (storeAnswer s .noSession 0, s)
  else
    match programOf id with
    | none => (storeAnswer s .badValue 0xFD, s)
    | some q => k q

/-! ## DEFINE_PROGRAM -/

/-- DEFINE_PROGRAM of a program id in range (R7). -/
def defineProgram (s : State) (q : Fin 32) (loopStart : Byte) (loopCount : Half) :
    Answer × State :=
  if 63 < loopStart.toNat then (storeAnswer s .badValue 0xFF, s)
  else if (s.prog q).state ≠ .empty then (storeAnswer s .state 0, s)
  else if (openProgram s).isSome then (storeAnswer s .defining 0, s)
  else
    let s1 := s.setProg q { state := .opened, steps := [], loopStart := loopStart.toNat,
                            loopCount := loopCount, useCount := 0 }
    (storeAnswer s1 .ok 0, s1)

/-- The answer to DEFINE_PROGRAM. -/
def answerDefineProgram (s : State) (payload : List Byte) : Answer × State :=
  match payload with
  | [id, start, c0, c1] =>
    changeProgram s id fun q => defineProgram s q start (read16 c0 c1)
  | _ => (storeAnswer s .badLength 0, s)

/-- DEFINE_PROGRAM (R7). -/
def execDefineProgram (s : State) : Host.Outcome State Fault Refusal :=
  .next (serveRequest 0x10 answerDefineProgram s)

/-! ## APPEND_STEPS -/

/-- APPEND_STEPS of a program id in range: `n` the step count field, `bytes` the steps (R8). -/
def appendSteps (s : State) (q : Fin 32) (n : Byte) (bytes : List Byte) : Answer × State :=
  let p := s.prog q
  if n.toNat = 0 ∨ 16 < n.toNat then (storeAnswer s .badValue 0xFE, s)
  else
    match stepsOf 0 bytes with
    | .error position => (storeAnswer s .badValue position, s)
    | .ok steps =>
      if p.state ≠ .opened then (storeAnswer s .state 0, s)
      else if Config.stepsPerProgram < p.steps.length + steps.length then
        (storeAnswer s .badValue 0x40, s)
      else if s.store.freeSlots < steps.length then (storeAnswer s .noSpace 0, s)
      else
        let s0 := s.setProg q { p with steps := p.steps ++ steps }
        let s1 := { s0 with store := { s0.store with
          freeSlots := s.store.freeSlots - steps.length } }
        (storeAnswer s1 .ok (p.steps.length + steps.length), s1)

/-- The answer to APPEND_STEPS; its length must be 2 + 4n (R174). -/
def answerAppendSteps (s : State) (payload : List Byte) : Answer × State :=
  match payload with
  | id :: n :: bytes =>
    if bytes.length = 4 * n.toNat then changeProgram s id fun q => appendSteps s q n bytes
    else (storeAnswer s .badLength 0, s)
  | _ => (storeAnswer s .badLength 0, s)

/-- APPEND_STEPS (R8). -/
def execAppendSteps (s : State) : Host.Outcome State Fault Refusal :=
  .next (serveRequest 0x11 answerAppendSteps s)

/-! ## SEAL_PROGRAM, DISCARD_PROGRAM, DELETE_PROGRAM -/

/-- SEAL_PROGRAM of a program id in range (R9). -/
def sealProgram (s : State) (q : Fin 32) : Answer × State :=
  let p := s.prog q
  if p.state ≠ .opened then (storeAnswer s .state 0, s)
  else if p.steps.length ≤ p.loopStart then (storeAnswer s .badValue 0xFF, s)
  else
    let s1 := s.setProg q { p with state := .sealed }
    (storeAnswer s1 .ok p.steps.length, s1)

/-- The answer to SEAL_PROGRAM. -/
def answerSealProgram (s : State) (payload : List Byte) : Answer × State :=
  match payload with
  | [id] => changeProgram s id fun q => sealProgram s q
  | _ => (storeAnswer s .badLength 0, s)

/-- SEAL_PROGRAM (R9). -/
def execSealProgram (s : State) : Host.Outcome State Fault Refusal :=
  .next (serveRequest 0x12 answerSealProgram s)

/-- DISCARD_PROGRAM of a program id in range (R10). -/
def discardProgram (s : State) (q : Fin 32) : Answer × State :=
  if (s.prog q).state ≠ .opened then (storeAnswer s .state 0, s)
  else (storeAnswer (emptyProgram s q) .ok 0, emptyProgram s q)

/-- The answer to DISCARD_PROGRAM. -/
def answerDiscardProgram (s : State) (payload : List Byte) : Answer × State :=
  match payload with
  | [id] => changeProgram s id fun q => discardProgram s q
  | _ => (storeAnswer s .badLength 0, s)

/-- DISCARD_PROGRAM (R10). -/
def execDiscardProgram (s : State) : Host.Outcome State Fault Refusal :=
  .next (serveRequest 0x13 answerDiscardProgram s)

/-- DELETE_PROGRAM of a program id in range (R11). -/
def deleteProgram (s : State) (q : Fin 32) : Answer × State :=
  if (s.prog q).state ≠ .sealed then (storeAnswer s .state 0, s)
  else if (s.prog q).useCount ≠ 0 then (storeAnswer s .inUse 0, s)
  else (storeAnswer (emptyProgram s q) .ok 0, emptyProgram s q)

/-- The answer to DELETE_PROGRAM. -/
def answerDeleteProgram (s : State) (payload : List Byte) : Answer × State :=
  match payload with
  | [id] => changeProgram s id fun q => deleteProgram s q
  | _ => (storeAnswer s .badLength 0, s)

/-- DELETE_PROGRAM (R11). -/
def execDeleteProgram (s : State) : Host.Outcome State Fault Refusal :=
  .next (serveRequest 0x14 answerDeleteProgram s)

/-! ## PROGRAM_INFO and PROGRAM_READ -/

/-- The reply fields of PROGRAM_INFO (R12, section 10.5). -/
def programInfo (p : Program) : Answer :=
  { result := .ok
    fields := [p.state.code, byteOf p.steps.length, byteOf p.loopStart] ++ le16 p.loopCount ++
      [byteOf p.useCount] }

/-- The answer to PROGRAM_INFO (R12). -/
def answerProgramInfo (s : State) (payload : List Byte) : Answer × State :=
  match payload with
  | [id] =>
    inSession s 6 <|
      match programOf id with
      | none => (refusal .badValue 6, s)
      | some q => (programInfo (s.prog q), s)
  | _ => (refusal .badLength 6, s)

/-- PROGRAM_INFO (R12). -/
def execProgramInfo (s : State) : Host.Outcome State Fault Refusal :=
  .next (serveRequest 0x15 answerProgramInfo s)

/-- PROGRAM_READ of a program id in range (R13). -/
def programRead (p : Program) (first count : Byte) : Answer :=
  if count.toNat = 0 ∨ 16 < count.toNat ∨ 63 < first.toNat then refusal .badValue 3
  else if p.state = .empty then refusal .state 3
  else
    let steps := (p.steps.drop first.toNat).take count.toNat
    { result := .ok
      fields := [p.state.code, byteOf p.steps.length, byteOf steps.length] ++
        steps.flatMap ProgStep.bytes }

/-- The answer to PROGRAM_READ (R13). -/
def answerProgramRead (s : State) (payload : List Byte) : Answer × State :=
  match payload with
  | [id, first, count] =>
    inSession s 3 <|
      match programOf id with
      | none => (refusal .badValue 3, s)
      | some q => (programRead (s.prog q) first count, s)
  | _ => (refusal .badLength 3, s)

/-- PROGRAM_READ (R13). -/
def execProgramRead (s : State) : Host.Outcome State Fault Refusal :=
  .next (serveRequest 0x16 answerProgramRead s)

end Sys2Proof.Machine
end

