-- ==== Sys2Proof/Machine/SessionUnit.lean ====
section
/-! DEFINITION. The session and report unit (chapter 9): sessions, host silence, acknowledgement,
resend and STATUS; and the requests IDENT, RESTART and REJECT of the link (chapter 8). -/

namespace Sys2Proof.Machine

/-! ## Session close -/

/-- The session fields after a close (R159 steps 1 to 4). -/
def Session.close (se : Session) (cause : CloseCause) : Session :=
  { se with
    silenceTimer := none
    resendTimer := none
    reports := []
    lost := LostCounts.zero
    state := .closed
    lastClose := cause
    silenceTimeout := none
    resendTime := none
    mask := none }

/-- A session close: the session unit closes, streaming is turned off, the reply cache is emptied
and the OPEN program discarded, in one event (R159). -/
def closeSession (s : State) (cause : CloseCause) : State :=
  discardOpen
    { s with
      session := s.session.close cause
      capture := { s.capture with streaming := false }
      link := { s.link with cache := [] } }

/-! ## OPEN_SESSION and CLOSE_SESSION -/

/-- The next session number: 255 is followed by 1, so 0 never names an open session (R158, R160). -/
def nextSession (n : Byte) : Byte := if n = 255 then 1 else n + 1

/-- Whether a time in ms is 0 or lies in a range (R160). -/
def offOrWithin (t : Half) (lo hi : Nat) : Bool :=
  t = 0 || (decide (lo ≤ t.toNat) && decide (t.toNat ≤ hi))

/-- The session fields of a new session (R160 steps 2, 3 and 5). -/
def Session.openNew (se : Session) (now : Word) (silence resend : Half) (mask : ReportMask) :
    Session :=
  { se with
    state := .opened
    number := nextSession se.number
    reports := []
    nextSequence := 1
    lost := LostCounts.zero
    silenceTimeout := some silence
    resendTime := some resend
    mask := some mask
    silenceTimer := if silence = 0 then none else some (expiryPoint now silence)
    resendTimer := none }

/-- OPEN_SESSION with fields in range (R160). -/
def openSession (s : State) (silence resend : Half) (mask : ReportMask) : State :=
  let s1 := if s.session.state = .opened then closeSession s .reopen else s
  { s1 with
    session := s1.session.openNew s.timeBase silence resend mask
    link := { s1.link with cache := [] } }

/-- The answer to OPEN_SESSION (R160). -/
def answerOpenSession (s : State) (payload : List Byte) : Answer × State :=
  match payload with
  | [a0, a1, r0, r1, m] =>
    let silence := read16 a0 a1
    let resend := read16 r0 r1
    if !offOrWithin silence 50 60000 then (refusal .badValue 2, s)
    else if !offOrWithin resend 10 5000 then (refusal .badValue 2, s)
    else
      match maskOf m with
      | none => (refusal .badValue 2, s)
      | some mask =>
        let s1 := openSession s silence resend mask
        ({ result := .ok
           fields := [s1.session.number,
                      if s.session.state = .opened then s.session.number else 0] }, s1)
  | _ => (refusal .badLength 2, s)

/-- OPEN_SESSION (R160). -/
def execOpenSession (s : State) : Host.Outcome State Fault Refusal :=
  .next (serveRequest 0x03 answerOpenSession s)

/-- One channel is halted by quiesce: every channel that is READY, RUNNING or DRAINING (R161). -/
def quiesceChannel (s : State) (c : Fin 8) : State :=
  if (s.chan c).haltable then haltChannel s c else s

/-- Quiesce: the channels that are not FORCED are halted in increasing number (R161). -/
def quiesce (s : State) : State := allChannels.foldl quiesceChannel s

/-- The channels quiesce halts (R161). -/
def haltedSet (s : State) : Byte := chanSet fun c => (s.chan c).haltable

/-- The answer to CLOSE_SESSION (R161). -/
def answerCloseSession (s : State) (payload : List Byte) : Answer × State :=
  match payload with
  | [q] =>
    inSession s 2 <|
      match boolOf q with
      | none => (refusal .badValue 2, s)
      | some true =>
        ({ result := .ok, fields := [s.session.number, haltedSet s] },
         closeSession (quiesce s) .request)
      | some false =>
        ({ result := .ok, fields := [s.session.number, 0] }, closeSession s .request)
  | _ => (refusal .badLength 2, s)

/-- CLOSE_SESSION (R161). -/
def execCloseSession (s : State) : Host.Outcome State Fault Refusal :=
  .next (serveRequest 0x04 answerCloseSession s)

/-! ## Host silence -/

/-- SILENCE_EXPIRY (R130, R162): the latch trips with cause SILENCE, then the session closes. -/
def execSilenceExpiry (s : State) : Host.Outcome State Fault Refusal :=
  .next
    (if timerExpired s.timeBase s.session.silenceTimer then
      arbitrate (closeSession (trip s .silence) .silence)
    else s)

/-! ## Acknowledgement and resend -/

/-- How many reports lead up to and include the one a sequence names, when that report has been
sent (R169 check 3). -/
def ackCount (sequence : Half) (reports : List Report) : Option Nat :=
  match reports with
  | [] => none
  | r :: rest =>
    if r.sequence = sequence then if r.unacknowledged then some 1 else none
    else (ackCount sequence rest).map (· + 1)

/-- The session fields after the first n reports are acknowledged: they are removed, and the resend
timer restarts when a SENT report remains and stops when none does (R169 steps 1 and 2, R170). -/
def Session.acknowledge (se : Session) (now : Word) (n : Nat) : Session :=
  let se1 := { se with reports := se.reports.drop n }
  { se1 with resendTimer := if se1.sentCount = 0 then none else se1.startResend now }

/-- The state after the first n reports are acknowledged: then the REPORTS_LOST check is made, and
capture moves are tried (R169 steps 1 to 4). -/
def acknowledge (s : State) (n : Nat) : State :=
  tryMoves { s with session := (s.session.acknowledge s.timeBase n).lossCheck }

/-- The reply fields of ACK_REPORTS: the number removed, and the queue as it stands (R169). -/
def ackAnswer (s : State) (r : Result) (removed : Nat) : Answer :=
  { result := r
    fields := [byteOf removed, byteOf s.session.reports.length,
               byteOf s.session.unacknowledged] }

/-- The answer to ACK_REPORTS (R169). -/
def answerAckReports (s : State) (payload : List Byte) : Answer × State :=
  match payload with
  | [s0, s1] =>
    inSession s 3 <|
      match ackCount (read16 s0 s1) s.session.reports with
      | none => (ackAnswer s .badValue 0, s)
      | some n => (ackAnswer (acknowledge s n) .ok n, acknowledge s n)
  | _ => (refusal .badLength 3, s)

/-- ACK_REPORTS (R169). -/
def execAckReports (s : State) : Host.Outcome State Fault Refusal :=
  .next (serveRequest 0x05 answerAckReports s)

/-- A SENT report becomes RESEND (R170). -/
def toResend (r : Report) : Report := if r.state = .sent then { r with state := .resend } else r

/-- RESEND_EXPIRY (R170): every SENT report becomes RESEND and the timer stops. -/
def execResendExpiry (s : State) : Host.Outcome State Fault Refusal :=
  .next
    (if timerExpired s.timeBase s.session.resendTimer then
      arbitrate { s with session := { s.session with reports := s.session.reports.map toResend
                                                     resendTimer := none } }
    else s)

/-! ## STATUS -/

/-- The reply of STATUS (R172, section 10.5). -/
def statusAnswer (s : State) : Answer :=
  { result := .ok
    fields :=
      [s.session.state.code, s.session.number, s.session.lastClose.code, s.cutoff.latch.code,
       s.cutoff.causes.code, s.line.lineState.code] ++
      le16 (BitVec.ofNat 16 s.store.freeSlots) ++
      le16 (BitVec.ofNat 16 (Config.stepSlots - s.store.freeSlots)) ++
      [byteOf (sealedCount s), bitSet [(openProgram s).isSome], bindingId (openProgram s),
       byteOf s.session.reports.length, byteOf s.session.unacknowledged] ++
      s.session.lost.bytes ++
      [byteOf s.capture.log.length] ++ le16 s.capture.dropCount ++
      le16 s.link.crcErrors ++ le16 s.link.frameErrors ++ le16 s.link.overruns }
where
  /-- A program id, 0 when absent. -/
  bindingId (p : Option (Fin 32)) : Byte :=
    match p with
    | none => 0
    | some p => programCode p

/-- The three link counters set to 0 (R153, R172). -/
def clearCounters (s : State) : State :=
  { s with link := { s.link with crcErrors := 0, frameErrors := 0, overruns := 0 } }

/-- The answer to STATUS (R172); it needs no session. -/
def answerStatus (s : State) (payload : List Byte) : Answer × State :=
  match payload with
  | [clear] =>
    match boolOf clear with
    | none => (refusal .badValue 36, s)
    | some true => (statusAnswer s, clearCounters s)
    | some false => (statusAnswer s, s)
  | _ => (refusal .badLength 36, s)

/-- STATUS (R172). -/
def execStatus (s : State) : Host.Outcome State Fault Refusal :=
  .next (serveRequest 0x02 answerStatus s)

/-! ## IDENT, RESTART and REJECT -/

/-- The reply of IDENT (R154, section 10.5). -/
def identAnswer : Answer :=
  { result := .ok
    fields := [0x44] ++ le16 0x2408 ++ [1, 8, 4, 32] ++ le16 512 ++ [16, 16, 64, 32] }

/-- The answer to IDENT (R154); it needs no session. -/
def answerIdent (s : State) (payload : List Byte) : Answer × State :=
  match payload with
  | [] => (identAnswer, s)
  | _ => (refusal .badLength 13, s)

/-- IDENT (R154). -/
def execIdent (s : State) : Host.Outcome State Fault Refusal :=
  .next (serveRequest 0x01 answerIdent s)

/-- The answer to RESTART (R156); it needs no session. -/
def answerRestart (s : State) (payload : List Byte) : Answer × State :=
  match payload with
  | [] =>
    ({ result := .ok, fields := [] }, { s with link := { s.link with restartPending := true } })
  | _ => (refusal .badLength 0, s)

/-- RESTART (R156). -/
def execRestart (s : State) : Host.Outcome State Fault Refusal :=
  .next (serveRequest 0x06 answerRestart s)

/-- The REJECT frame of a request: KIND FFh, its TAG, the result UNKNOWN_KIND (R146). -/
def rejectFrame (r : Request) : Frame :=
  { kind := 0xFF, tag := r.tag, payload := (refusal .unknownKind 0).payload }

/-- REJECT (R146): the head request's KIND names no request. -/
def execReject (s : State) : Host.Outcome State Fault Refusal :=
  .next
    (match takeRequest namesNoRequest s with
     | none => s
     | some (r, s0) => concludeRequest r (rejectFrame r) s0)

end Sys2Proof.Machine
end

