-- ==== Sys2Proof/Machine/Timebase.lean ====
section
/-! DEFINITION. The timebase unit (chapter 5): the tick of the time base, the line base and its
states, and the requests TIMEBASE_CONFIG, SET_LINE and READ_TIME. -/

namespace Sys2Proof.Machine

/-! ## The tick -/

/-- One more microsecond of quiet time, stopping at its limit (R88). -/
def tickQuiet (q : Option Nat) : Option Nat := q.map fun n => min (n + 1) Config.quietLimit

/-- LINE is sampled, and the quiet time advances (R88, R89). -/
def tickLine (level : Level) (l : LineUnit) : LineUnit :=
  { l with candidate := sampleFilter l.level l.candidate level, quiet := tickQuiet l.quiet }

/-- CUTOFF_N is sampled (R128). -/
def tickCutoff (level : Level) (k : Cutoff) : Cutoff :=
  { k with candidate := sampleFilter k.level k.candidate level }

/-- A capture input whose mode is not OFF is sampled, and its open measurement counts (R104,
R110). -/
def tickInput (level : Level) (i : CapInput) : CapInput :=
  match i.level with
  | none => i
  | some accepted =>
    { i with
      candidate := sampleFilter accepted i.candidate level
      measure := i.measure.map fun m =>
        { m with elapsed := min (m.elapsed + 1) Config.measureLimit } }

/-- A frame on TXD advances by the bits of one microsecond (R140, log 16). -/
def tickTransmitter (rate : LinkRate) (t : Transmitter) : Transmitter :=
  match t with
  | .idle => .idle
  | .sending f left => .sending f (left - rate.bitsPerSecond)

/-- One microsecond more since the end of start-up, in millionths of a bit time, up to one character
(R155, log 32). -/
def tickListened (rate : LinkRate) (n : Nat) : Nat :=
  min (n + rate.bitsPerSecond) Config.characterTime

/-- One tick: the time base rises by 1 and a frame on TXD advances; after start-up the receiver's
time goes on, and LINE, CUTOFF_N and the capture inputs are sampled at the levels on their pins
(R86, R89, R101, R104, R126, R128, R139, R155). -/
def tick (pins : Pins) (s : State) : State :=
  let link := { s.link with transmitter := tickTransmitter s.link.rate s.link.transmitter }
  let s1 := { s with timeBase := s.timeBase + 1, pins := pins, link := link }
  if s.startUp then s1
  else
    { s1 with
      link := { link with listened := tickListened s.link.rate s.link.listened }
      line := tickLine pins.line s.line
      cutoff := tickCutoff pins.cutoffN s.cutoff
      capture := { s.capture with
        inputs := Vector.ofFn fun i => tickInput pins.cap[i] s.capture.inputs[i] } }

/-- TIME_BASE_TICK (R86). -/
def execTimeBaseTick (pins : Pins) (s : State) : Host.Outcome State Fault Refusal :=
  .next (tick pins s)

/-! ## The line -/

/-- The line period at an accepted rising edge: the distance from the last edge point, FFFFFFFFh
when the quiet time stands at 2^32 or more, once a trusted edge is known (R90 step 2). -/
def nextPeriod (now : Word) (l : LineUnit) : Option Word :=
  match l.lastEdge with
  | some e =>
    if 1 ≤ l.freshEdges then
      some (if 4294967296 ≤ l.quiet.getD 0 then 0xFFFFFFFF else now - e)
    else l.period
  | none => l.period

/-- The line fields after an accepted rising change (R89, R90). -/
def LineUnit.rise (now : Word) (l : LineUnit) : LineUnit :=
  { l with
    lineBase := l.lineBase + 1
    period := nextPeriod now l
    freshEdges := min (l.freshEdges + 1) 2
    lineState := .moving
    lastEdge := some now
    quiet := some 0
    level := .high
    candidate := none }

/-- The stall duration in whole milliseconds, from the quiet time (R93). -/
def stallDuration (l : LineUnit) : Word := BitVec.ofNat 32 (l.quiet.getD 0 / 1000)

/-- An accepted rising change of LINE; a STALLED line submits LINE_RESUMED (R90, R93). -/
def riseLine (s : State) : State :=
  let s1 := { s with line := s.line.rise s.timeBase }
  if s.line.lineState = .stalled then submit s1 (.lineResumed (stallDuration s.line)) else s1

/-- The line fields after an accepted falling change: the accepted level and nothing else (R89,
R90). -/
def LineUnit.fall (l : LineUnit) : LineUnit := { l with level := .low, candidate := none }

/-- LINE_RISE (R90): the candidate for HIGH is complete and is accepted. -/
def execLineRise (s : State) : Host.Outcome State Fault Refusal :=
  .next
    (if acceptedChange s.line.candidate s.line.filter.toNat = some .high then
      arbitrate (riseLine s)
    else s)

/-- LINE_FALL (R89): the candidate for LOW is complete and is accepted. -/
def execLineFall (s : State) : Host.Outcome State Fault Refusal :=
  .next
    (if acceptedChange s.line.candidate s.line.filter.toNat = some .low then
      { s with line := s.line.fall }
    else s)

/-- Whether the stall point is reached: MOVING, detection on, and the quiet time at the limit
(R91, R96). -/
def stallReached (l : LineUnit) : Bool :=
  l.lineState = .moving && l.stallLimit != 0 &&
    (match l.quiet with
     | some q => decide (l.stallLimit.toNat * 1000 ≤ q)
     | none => false)

/-- A stall notice is handed to each LINE-bound channel (R91). -/
def handStallNotices (s : State) : State :=
  { s with channels := s.channels.map fun ch =>
      if ch.lineBound then { ch with stallNotices := ch.stallNotices + 1 } else ch }

/-- The line enters STALLED (R91). -/
def stallLine (s : State) : State :=
  handStallNotices
    (submit
      { s with line := { s.line with lineState := .stalled, period := some 0, freshEdges := 0 } }
      (.lineStall s.line.lineBase (s.line.lastEdge.getD 0)))

/-- LINE_STALL_DETECTED (R91). -/
def execLineStallDetected (s : State) : Host.Outcome State Fault Refusal :=
  .next (if stallReached s.line then arbitrate (stallLine s) else s)

/-! ## TIMEBASE_CONFIG -/

/-- A new filter acts on the candidate in progress (R95). -/
def applyLineFilter (s : State) : State :=
  match acceptedChange s.line.candidate s.line.filter.toNat with
  | some .high => riseLine s
  | some .low => { s with line := s.line.fall }
  | none => s

/-- A new stall limit acts on the line state (R96). -/
def applyStallLimit (s : State) : State :=
  if s.line.lineState = .stalled ∧ s.line.stallLimit = 0 then
    { s with line := { s.line with lineState := .moving } }
  else if stallReached s.line then stallLine s
  else s

/-- Both settings act. Where the filter completes a rising candidate, the order of R95 and R96 is
open, and a free value says which is first (log 9). -/
def applyLineSettings (s : State) : State :=
  if acceptedChange s.line.candidate s.line.filter.toNat = some .high then
    let s1 := { s with freeCount := s.freeCount + 1 }
    if Config.freeBit s.freeCount then applyStallLimit (applyLineFilter s1)
    else applyLineFilter (applyStallLimit s1)
  else applyStallLimit (applyLineFilter s)

/-- The reply fields of TIMEBASE_CONFIG as they stand (R94). -/
def lineAnswer (s : State) (r : Result) : Answer :=
  { result := r
    fields := [byteOf s.line.filter.toNat] ++ le16 s.line.stallLimit ++ [s.line.lineState.code] }

/-- The answer to TIMEBASE_CONFIG (R94). -/
def answerTimebaseConfig (s : State) (payload : List Byte) : Answer × State :=
  match payload with
  | [filter, l0, l1] =>
    inSession s 4 <|
      match filterOf filter with
      | none => (lineAnswer s .badValue, s)
      | some f =>
        let limit := read16 l0 l1
        if 60000 < limit.toNat then (lineAnswer s .badValue, s)
        else
          let s1 :=
            applyLineSettings { s with line := { s.line with filter := f, stallLimit := limit } }
          (lineAnswer s1 .ok, s1)
  | _ => (refusal .badLength 4, s)

/-- TIMEBASE_CONFIG (R94 to R96). -/
def execTimebaseConfig (s : State) : Host.Outcome State Fault Refusal :=
  .next (serveRequest 0x28 answerTimebaseConfig s)

/-! ## SET_LINE and READ_TIME -/

/-- A preset offset is handed to each LINE-bound channel (R98). -/
def handPreset (k : Word) (s : State) : State :=
  { s with channels := s.channels.map fun ch =>
      if ch.lineBound then { ch with presets := ch.presets ++ [k] } else ch }

/-- The line base is preset to `v` (R97). -/
def presetLine (v : Word) (s : State) : State :=
  let k := v - s.line.lineBase
  handPreset k
    { s with line := { s.line with lineBase := v, presetsMade := s.line.presetsMade + 1,
                                   offsetSum := s.line.offsetSum + k } }

/-- The answer to SET_LINE (R97). -/
def answerSetLine (s : State) (payload : List Byte) : Answer × State :=
  match payload with
  | [v0, v1, v2, v3] =>
    inSession s 8 <|
      let v := read32 v0 v1 v2 v3
      ({ result := .ok, fields := le32 s.line.lineBase ++ le32 (v - s.line.lineBase) },
       presetLine v s)
  | _ => (refusal .badLength 8, s)

/-- SET_LINE (R97, R98). -/
def execSetLine (s : State) : Host.Outcome State Fault Refusal :=
  .next (serveRequest 0x29 answerSetLine s)

/-- The answer to READ_TIME (R100). -/
def answerReadTime (s : State) (payload : List Byte) : Answer × State :=
  match payload with
  | [] =>
    inSession s 14
      ({ result := .ok
         fields := le32 s.timeBase ++ le32 s.line.lineBase ++
           [s.line.lineState.code, bitSet [s.line.period.isSome]] ++ orZero32 s.line.period }, s)
  | _ => (refusal .badLength 14, s)

/-- READ_TIME (R100). -/
def execReadTime (s : State) : Host.Outcome State Fault Refusal :=
  .next (serveRequest 0x2A answerReadTime s)

end Sys2Proof.Machine
end

