-- ==== Sys2Proof/WellFormed.lean ====
section
/-! DEFINITION. Which commands are well formed. Channel and input numbers are bounded by their
types; what is left are the two rows whose summary fixes a property of an operand. -/

namespace Sys2Proof

/-- A byte that is no LEN value: 0, 1 or 243 to 255 (R142). -/
def invalidLen (b : Byte) : Bool := b.toNat < 2 || 242 < b.toNat

/-- A command is well formed when an INVALID_LEN_BYTE carries a byte outside 2..242 (R142) and a
HARD_RESET by RESET_N names a pulse long enough to be one (R155). -/
def Instr.wellFormed (i : Instr) : Bool :=
  match i with
  | .invalidLenByte b => invalidLen b
  | .hardReset (.resetN t) _ _ => decide (10 ≤ t)
  | _ => true

end Sys2Proof
end

