-- ==== Sys2Proof/Machine/LinkUnit.lean ====
section
/-! DEFINITION. The link interface (chapter 8): the receive framer, the judgement of a complete
frame, the end of a transmission, the soft reset, hard reset and the end of start-up. -/

namespace Sys2Proof.Machine

/-! ## A complete frame -/

/-- The silence timer restarted by a good frame, when it is running (R144 step 1, R162). -/
def restartSilence (s : State) : State :=
  match s.session.silenceTimer, s.session.silenceTimeout with
  | some _, some t =>
    { s with session := { s.session with silenceTimer := some (expiryPoint s.timeBase t) } }
  | _, _ => s

/-- One more overrun (R153). -/
def countOverrun (s : State) : State :=
  { s with link := { s.link with overruns := s.link.overruns.satSucc } }

/-- One more frame error (R153). -/
def countFrameError (s : State) : State :=
  { s with link := { s.link with frameErrors := s.link.frameErrors.satSucc } }

/-- A cached reply with the REPEAT bit set (R150, section 10.2). -/
def Frame.repeated (f : Frame) : Frame :=
  match f.payload with
  | result :: flags :: fields => { f with payload := result :: (flags ||| 1) :: fields }
  | _ => f

/-- A good frame that matches a cache entry: dropped while restart is pending, else answered with a
copy marked REPEAT, or an overrun when the reply queue is full (R150). -/
def repeatReply (s : State) (e : CacheEntry) : State :=
  if s.link.restartPending then s
  else if s.link.replyQueue.length < Config.replyQueueSize then
    { s with link := { s.link with replyQueue := s.link.replyQueue ++ [e.reply.repeated] } }
  else countOverrun s

/-- A good frame enters the request queue, or is dropped as an overrun when the queue is full
(R145). -/
def enqueueRequest (s : State) (r : Request) : State :=
  if s.link.requestQueue.length < Config.requestQueueSize then
    { s with link := { s.link with requestQueue := s.link.requestQueue ++ [r] } }
  else countOverrun s

/-- The cache entry a frame matches, by TAG and received CRC (R150). -/
def cacheMatch (s : State) (r : Request) : Option CacheEntry :=
  s.link.cache.find? fun e => e.tag = r.tag ∧ e.crc = r.crc

/-- Whether a frame matches a waiting request, by TAG and received CRC (R151). -/
def waitingMatch (s : State) (r : Request) : Bool :=
  s.link.requestQueue.any fun q => q.tag = r.tag ∧ q.crc = r.crc

/-- A good frame: the silence timer restarts; while the session is OPEN the cache and then the
waiting requests are compared; otherwise the frame enters the request queue (R144). -/
def acceptFrame (s : State) (r : Request) : State :=
  let s1 := restartSilence s
  if s1.session.state = .opened then
    match cacheMatch s1 r with
    | some e => repeatReply s1 e
    | none => if waitingMatch s1 r then s1 else enqueueRequest s1 r
  else enqueueRequest s1 r

/-- A complete frame is judged by its CRC over the bytes kept (R144). -/
def judgeFrame (s : State) (len : Byte) (kept : List Byte) (crc : Half) : State :=
  if crc16 (len :: kept) ≠ crc then
    { s with link := { s.link with crcErrors := s.link.crcErrors.satSucc } }
  else
    match kept with
    | kind :: tag :: payload =>
      acceptFrame s { kind := kind, tag := tag, payload := payload, crc := crc }
    | _ => s

/-! ## The framer -/

/-- The state with another framer state. -/
def setFramer (s : State) (f : Framer) : State := { s with link := { s.link with framer := f } }

/-- A partial frame is discarded and counted (R142, R143). -/
def discardPartial (s : State) : State := countFrameError (setFramer s .hunt)

/-- A body byte is kept, and CHECK follows when LEN bytes have been kept (R142). -/
def keepBody (now : Word) (len : Byte) (kept : List Byte) : Framer :=
  if kept.length < len.toNat then .body len kept now else .check len kept none now

/-- The receive framer takes one byte (R142). -/
def receive (b : Byte) (s : State) : State :=
  match s.link.framer with
  | .hunt => if b = 0xA5 then setFramer s (.length s.timeBase) else s
  | .length _ =>
    if invalidLen b then discardPartial s else setFramer s (.body b [] s.timeBase)
  | .body len kept _ => setFramer s (keepBody s.timeBase len (kept ++ [b]))
  | .check len kept none _ => setFramer s (.check len kept (some b) s.timeBase)
  | .check len kept (some low) _ =>
    arbitrate (judgeFrame (setFramer s .hunt) len kept (read16 low b))

/-- Whether the character that ends now is received: start-up has ended, and the character's start
bit began no earlier, so that the receiver has been listening for a whole character (R155,
log 32). -/
def hears (s : State) : Bool := !s.startUp && decide (Config.characterTime ≤ s.link.listened)

/-- RECEIVED_BYTE (R142): the receiver passes one character to the framer; a character that began
before the end of start-up is not received (R155). The framer's rule is carried out for whichever
byte it is (log 20). -/
def execReceivedByte (b : Byte) (s : State) : Host.Outcome State Fault Refusal :=
  .next (if hears s then receive b s else s)

/-- Whether the next byte is the second CRC byte (R142). -/
def awaitsLastByte (f : Framer) : Bool :=
  match f with
  | .check _ _ (some _) _ => true
  | _ => false

/-- Whether the next byte is a LEN byte (R142). -/
def awaitsLength (f : Framer) : Bool :=
  match f with
  | .length _ => true
  | _ => false

/-- FRAME_COMPLETE (R144): the last CRC byte of a frame is received. -/
def execFrameComplete (b : Byte) (s : State) : Host.Outcome State Fault Refusal :=
  .next (if hears s && awaitsLastByte s.link.framer then receive b s else s)

/-- INVALID_LEN_BYTE (R142): a LEN byte outside 2..242 is received. -/
def execInvalidLenByte (b : Byte) (s : State) : Host.Outcome State Fault Refusal :=
  .next (if hears s && awaitsLength s.link.framer && invalidLen b then receive b s else s)

/-- The point of the last byte kept of a partial frame (R143). -/
def lastKept (f : Framer) : Option Word :=
  match f with
  | .hunt => none
  | .length p => some p
  | .body _ _ p => some p
  | .check _ _ _ p => some p

/-- Whether more than 2,000 µs have passed since the last byte kept of a partial frame (R143,
log 15). -/
def gapReached (s : State) : Bool :=
  match lastKept s.link.framer with
  | none => false
  | some p => decide (Config.gapLimit < (s.timeBase - p).toNat)

/-- INTER_BYTE_GAP_TIMEOUT (R143). -/
def execInterByteGapTimeout (s : State) : Host.Outcome State Fault Refusal :=
  .next (if gapReached s then discardPartial s else s)

/-! ## RESTART -/

/-- The link interface after the soft reset (R157 step 2). -/
def Link.restart (l : Link) : Link :=
  { l with requestQueue := [], replyQueue := [], cache := [], framer := .hunt,
           transmitter := .idle, restartPending := false }

/-- The line fields after RESTART (R88, R102). -/
def LineUnit.restart (l : LineUnit) : LineUnit :=
  { l with lineState := .waiting, filter := 0, stallLimit := 0, candidate := none,
           lastEdge := none, period := none, freshEdges := 0, quiet := none }

/-- The use counts released by every binding of a channel (R17, R48). -/
def releaseBindings (s : State) (c : Fin 8) : State :=
  releaseUse (releaseUse s (s.chan c).active) (s.chan c).pending

/-- Re-initialisation of one channel (R48). A trigger delivered and not yet taken is dropped with the
queue, as R126 says, and a preset handed and not yet taken with the points, as R98 says; that offered
edges and stall notices go with them is log 29. -/
def restartChannel (s : State) (c : Fin 8) : State :=
  (releaseBindings s c).setChan c Channel.init

/-- The session closes, when it is OPEN (R157 step 1). -/
def closeForRestart (s : State) : State :=
  if s.session.state = .opened then closeSession s .restart else s

/-- The link interface is re-initialised (R157 step 2). -/
def restartLink (s : State) : State := { s with link := s.link.restart }

/-- The channels are re-initialised (R157 step 4). -/
def restartChannels (s : State) : State := allChannels.foldl restartChannel s

/-- The timebase and capture units take their values, and the candidate of CUTOFF_N is cancelled
(R128, R157 steps 5 and 6). -/
def restartUnits (s : State) : State :=
  { s with line := s.line.restart, capture := Capture.init,
           cutoff := { s.cutoff with candidate := none } }

/-- With the latch TRIPPED every channel is forced from OFF (R139, R157 step 7). -/
def forceWhenTripped (s : State) : State :=
  match s.cutoff.latch with
  | .tripped => allChannels.foldl forceChannel s
  | .clear => s

/-- The soft reset of RESTART (R157): its seven steps in order. -/
def softReset (s : State) : State :=
  forceWhenTripped
    (restartUnits (restartChannels (discardOpen (restartLink (closeForRestart s)))))

/-! ## The end of a transmission -/

/-- The part of the last tick a frame left unused when it ends on its tick, 0 or less; a following
frame starts at once, with no gap (R152, log 16). -/
def carryOf (rate : LinkRate) (left : Int) : Int :=
  if -(rate.bitsPerSecond : Int) < left then left else 0

/-- The end of a transmission: the soft reset when it was the RESTART reply, the last reply of its
queue (R156, log 21); otherwise the arbiter's next choice (R152). -/
def endTransmission (s : State) (left : Int) : State :=
  let s1 := { s with link := { s.link with transmitter := .idle } }
  if s.link.restartPending ∧ s.link.replyQueue = [] then softReset s1
  else arbitrateCarry s1 (carryOf s.link.rate left)

/-- TRANSMISSION_END (R152, R156): the frame on TXD has been sent whole. -/
def execTransmissionEnd (s : State) : Host.Outcome State Fault Refusal :=
  .next
    (match s.link.transmitter with
     | .idle => s
     | .sending _ left => if left ≤ 0 then endTransmission s left else s)

/-! ## Hard reset and start-up -/

/-- Whether a cause resets the part: a LOW pulse on RESET_N shorter than 10 µs does not (R155). -/
def resets (cause : ResetCause) : Bool :=
  match cause with
  | .powerOn => true
  | .resetN t => decide (Config.resetPulse ≤ t)

/-- HARD_RESET (R18, R47, R86, R88, R103, R126, R139, R155, R158): every block takes its reset
values, the link rate is sampled from the straps and start-up begins. The levels on the pins and
the commands waiting are outside the part (log 23). -/
def execHardReset (cause : ResetCause) (baud1 baud0 : Level) (s : State) :
    Host.Outcome State Fault Refusal :=
  .next
    (if resets cause then
      { State.reset with
        link := Link.init (LinkRate.ofStraps baud1 baud0)
        pins := s.pins
        freeCount := s.freeCount
        pending := s.pending }
    else s)

/-- The end of start-up: the levels of LINE and CUTOFF_N are taken, the latch trips with cause PIN
when CUTOFF_N is LOW, and the receiver begins to detect characters (R101, R139, R155). -/
def endStartUp (s : State) : State :=
  let s1 :=
    { s with
      startUp := false
      link := { s.link with listened := 0 }
      line := { s.line with level := s.pins.line, candidate := none }
      cutoff := { s.cutoff with level := s.pins.cutoffN, candidate := none } }
  if s.pins.cutoffN = .low then trip s1 .pin else s1

/-- START_UP_END (R86, R155): 5 ms have passed since the release of reset (log 26). -/
def execStartUpEnd (s : State) : Host.Outcome State Fault Refusal :=
  .next
    (if s.startUp && decide (Config.startUpTicks ≤ s.timeBase.toNat) then
      arbitrate (endStartUp s)
    else s)

end Sys2Proof.Machine
end

