-- ==== Sys2Proof/Machine/Dispatch.lean ====
section
/-! DEFINITION. The dispatch of a command to its meaning: one arm per constructor of Instr. -/

namespace Sys2Proof.Machine

def exec (i : Instr) (s : State) : Host.Outcome State Fault Refusal :=
  match i with
  | .ident => Sys2Proof.Machine.execIdent s
  | .status => Sys2Proof.Machine.execStatus s
  | .openSession => Sys2Proof.Machine.execOpenSession s
  | .closeSession => Sys2Proof.Machine.execCloseSession s
  | .ackReports => Sys2Proof.Machine.execAckReports s
  | .restart => Sys2Proof.Machine.execRestart s
  | .cutoff => Sys2Proof.Machine.execCutoff s
  | .cutoffRelease => Sys2Proof.Machine.execCutoffRelease s
  | .setChannelOptions => Sys2Proof.Machine.execSetChannelOptions s
  | .defineProgram => Sys2Proof.Machine.execDefineProgram s
  | .appendSteps => Sys2Proof.Machine.execAppendSteps s
  | .sealProgram => Sys2Proof.Machine.execSealProgram s
  | .discardProgram => Sys2Proof.Machine.execDiscardProgram s
  | .deleteProgram => Sys2Proof.Machine.execDeleteProgram s
  | .programInfo => Sys2Proof.Machine.execProgramInfo s
  | .programRead => Sys2Proof.Machine.execProgramRead s
  | .bind => Sys2Proof.Machine.execBind s
  | .enable => Sys2Proof.Machine.execEnable s
  | .stop => Sys2Proof.Machine.execStop s
  | .halt => Sys2Proof.Machine.execHalt s
  | .fire => Sys2Proof.Machine.execFire s
  | .channelStatus => Sys2Proof.Machine.execChannelStatus s
  | .timebaseConfig => Sys2Proof.Machine.execTimebaseConfig s
  | .setLine => Sys2Proof.Machine.execSetLine s
  | .readTime => Sys2Proof.Machine.execReadTime s
  | .captureConfig => Sys2Proof.Machine.execCaptureConfig s
  | .routeAdd => Sys2Proof.Machine.execRouteAdd s
  | .routeRemove => Sys2Proof.Machine.execRouteRemove s
  | .routeList => Sys2Proof.Machine.execRouteList s
  | .readCaptures => Sys2Proof.Machine.execReadCaptures s
  | .captureStream => Sys2Proof.Machine.execCaptureStream s
  | .reject => Sys2Proof.Machine.execReject s
  | .frameComplete b => Sys2Proof.Machine.execFrameComplete b s
  | .invalidLenByte b => Sys2Proof.Machine.execInvalidLenByte b s
  | .interByteGapTimeout => Sys2Proof.Machine.execInterByteGapTimeout s
  | .transmissionEnd => Sys2Proof.Machine.execTransmissionEnd s
  | .hardReset cause baud1 baud0 => Sys2Proof.Machine.execHardReset cause baud1 baud0 s
  | .startUpEnd => Sys2Proof.Machine.execStartUpEnd s
  | .lineRise => Sys2Proof.Machine.execLineRise s
  | .lineFall => Sys2Proof.Machine.execLineFall s
  | .lineStallDetected => Sys2Proof.Machine.execLineStallDetected s
  | .captureEdge input => Sys2Proof.Machine.execCaptureEdge input s
  | .cutoffNAssertion => Sys2Proof.Machine.execCutoffNAssertion s
  | .cutoffNDeassertion => Sys2Proof.Machine.execCutoffNDeassertion s
  | .silenceExpiry => Sys2Proof.Machine.execSilenceExpiry s
  | .resendExpiry => Sys2Proof.Machine.execResendExpiry s
  | .headEntryDue c => Sys2Proof.Machine.execHeadEntryDue c s
  | .stepEnd c => Sys2Proof.Machine.execStepEnd c s
  | .holdUntilTimeout c => Sys2Proof.Machine.execHoldUntilTimeout c s
  | .holdUntilEdge c => Sys2Proof.Machine.execHoldUntilEdge c s
  | .routeTrigger c => Sys2Proof.Machine.execRouteTrigger c s
  | .stallNotice c => Sys2Proof.Machine.execStallNotice c s
  | .linePresetTaken c => Sys2Proof.Machine.execLinePresetTaken c s
  | .entryOverdueDiscard c => Sys2Proof.Machine.execEntryOverdueDiscard c s
  | .receivedByte b => Sys2Proof.Machine.execReceivedByte b s
  | .timeBaseTick pins => Sys2Proof.Machine.execTimeBaseTick pins s

end Sys2Proof.Machine
end

