-- ==== Sys2Proof/Safety.lean ====
section
/-! DEFINITION. What a safe state is: the laws the chapters state in bold and the bounds their tables
give, block by block; which happenings are there to be taken; and the words the statements use for a
request that is served. -/

namespace Sys2Proof.Machine

/-! ## The program store (chapter 1) -/

/-- The sum of the step counts of all programs that are not EMPTY (R4). -/
def stepsHeld (s : State) : Nat :=
  ((allPrograms.filter fun q => (s.prog q).state != .empty).map fun q =>
    (s.prog q).steps.length).sum

/-- How many bindings of one channel, active and pending, name the program (R14). -/
def Channel.naming (ch : Channel) (q : Fin 32) : Nat :=
  (ch.active.toList ++ ch.pending.toList).countP fun b => b.program == q

/-- How many active and pending bindings, over all channels, name the program (R14). -/
def bindingsNaming (s : State) (q : Fin 32) : Nat :=
  (allChannels.map fun c => (s.chan c).naming q).sum

/-- The pool law (R4): free step slots and steps held make 512. -/
abbrev PoolLaw (s : State) : Prop := s.store.freeSlots + stepsHeld s = 512

/-- The bounds of a program record (R1, R2, R8, R9): an EMPTY record holds nothing, and a SEALED
program has its loop start below its step count. -/
abbrev RecordLaw (p : Program) : Prop :=
  (p.state = .empty → p = Program.none) ∧ p.steps.length ≤ 64 ∧ p.loopStart ≤ 63 ∧
    (p.state = .sealed → p.loopStart < p.steps.length) ∧
    (∀ st ∈ p.steps, st.duration ≠ 0)

/-- The law of the OPEN program (R7, R16): at most one, and none while the session is CLOSED. -/
abbrev OpenLaw (s : State) : Prop :=
  (∀ p q, (s.prog p).state = .opened → (s.prog q).state = .opened → p = q) ∧
    (s.session.state = .closed → ∀ p, (s.prog p).state ≠ .opened)

/-- The use count law (R14). -/
abbrev UseLaw (s : State) : Prop :=
  (∀ q, (s.prog q).useCount = bindingsNaming s q) ∧
    ∀ c, ∀ b ∈ (s.chan c).active.toList ++ (s.chan c).pending.toList,
      (s.prog b.program).state = .sealed

/-- The laws of the program store. -/
abbrev StoreLaw (s : State) : Prop :=
  PoolLaw s ∧ (∀ q, RecordLaw (s.prog q)) ∧ OpenLaw s ∧ UseLaw s

/-! ## The channels (chapters 2 to 4) -/

/-- Out of service a channel holds nothing (R21: OFF and FORCED). -/
abbrev RestLaw (ch : Channel) : Prop :=
  ch.state = .off ∨ ch.state = .forced → ch.firing = none ∧ ch.queue = [] ∧ ch.pending = none

/-- In service a channel has an active binding; READY is TRIGGERED with nothing running, RUNNING
has a firing or pass in progress, and a CONTINUOUS channel in service always has (R21). -/
abbrev ServiceLaw (ch : Channel) : Prop :=
  (ch.state = .ready → ch.firing = none ∧ ch.active.map Binding.mode = some .triggered) ∧
    (ch.state = .running → ch.firing.isSome = true) ∧
    (ch.inService = true → ch.active.isSome = true) ∧
    (ch.active.map Binding.mode = some .continuous →
      ch.queue = [] ∧ (ch.inService = true → ch.firing.isSome = true))

/-- A pending binding waits only behind a firing or pass in progress, and has the base and mode of
the active binding (R21, R76). -/
abbrev PendingLaw (ch : Channel) : Prop :=
  ∀ p ∈ ch.pending, ch.firing.isSome = true ∧ ch.active.map Binding.base = some p.base ∧
    ch.active.map Binding.mode = some p.mode

/-- The level at rest and the level while FORCED (R21). -/
abbrev OutputLaw (ch : Channel) : Prop :=
  (ch.state = .forced → ch.output = ch.safeLevel) ∧
    (ch.state ≠ .forced → ch.firing = none → ch.output = ch.idleLevel)

/-- A firing carries its entry and lateness, a CONTINUOUS pass neither (R29). -/
abbrev FiringLaw (ch : Channel) : Prop :=
  ∀ f ∈ ch.firing, f.entry.isSome = f.lateness.isSome ∧
    (f.entry.isSome = true ↔ ch.active.map Binding.mode = some .triggered)

/-- The laws of one channel record (R19, R21, R29, R51, R76). -/
abbrev ChannelLaw (ch : Channel) : Prop :=
  ch.queue.length ≤ 16 ∧ RestLaw ch ∧ ServiceLaw ch ∧ PendingLaw ch ∧ OutputLaw ch ∧ FiringLaw ch

/-- A LINE-bound channel and the timebase unit agree on the presets made: those taken and those
still handed make all, and their offsets add up to the unit's (R69, R98). -/
abbrev PresetLaw (s : State) : Prop :=
  ∀ c, (s.chan c).lineBound = true →
    (s.chan c).presetsTaken + BitVec.ofNat 16 (s.chan c).presets.length = s.line.presetsMade ∧
      (s.chan c).coords + (s.chan c).presets.sum = s.line.offsetSum

/-! ## The timebase unit (chapter 5) -/

/-- The bounds and ties of the line fields (R88, R90, R91, R94). -/
abbrev LineLaw (l : LineUnit) : Prop :=
  l.freshEdges ≤ 2 ∧ l.stallLimit.toNat ≤ 60000 ∧
    (l.lineState = .waiting ↔ l.lastEdge = none) ∧ l.quiet.isSome = l.lastEdge.isSome ∧
    (∀ q ∈ l.quiet, q ≤ Config.quietLimit) ∧
    (l.lineState = .stalled → l.period = some 0 ∧ l.freshEdges = 0) ∧
    (∀ k ∈ l.candidate, k.level ≠ l.level)

/-! ## The capture unit (chapter 6) -/

/-- The ties of an input record (R103, R107, R110). -/
abbrev InputLaw (i : CapInput) : Prop :=
  (i.mode = .off ↔ i.level = none) ∧ (i.mode = .off → i.candidate = none) ∧
    (i.mode = .off ∨ i.mode = .edges → i.measure = none) ∧
    (∀ m ∈ i.measure, m.elapsed ≤ Config.measureLimit) ∧
    (∀ k ∈ i.candidate, i.level ≠ some k.level)

/-- How the number of a log entry follows its predecessor's (R119). -/
abbrev Follows (a b : CapEntry) : Prop :=
  if b.kind = .gap then b.value = 65535 ∨ b.number = a.number + 1 + b.value.setWidth 16
  else b.number = a.number + 1

/-- Consecutive entries of a list follow each other. -/
def InSequence (log : List CapEntry) : Prop :=
  match log with
  | a :: b :: rest => Follows a b ∧ InSequence (b :: rest)
  | _ => True

/-- The laws of the capture log (R119, R121): its size, its numbering and the next number, and that
a log with a drop count is full. -/
def LogLaw (cap : Capture) : Prop :=
  cap.log.length ≤ 64 ∧ (cap.dropCount ≠ 0 → cap.log.length = 64) ∧
    (cap.lastDropped.isSome = true ↔ cap.dropCount ≠ 0) ∧ InSequence cap.log ∧
    ∀ a ∈ cap.log.getLast?, cap.dropCount = 65535 ∨
      cap.nextNumber = a.number + 1 + cap.dropCount

/-- No two routes are the same (R113). -/
abbrev RouteLaw (s : State) : Prop :=
  ∀ i j, s.route i ≠ none → s.route i = s.route j → i = j

/-- The laws of the capture unit; streaming is off while the session is CLOSED (R122). -/
def CaptureLaw (s : State) : Prop :=
  LogLaw s.capture ∧ RouteLaw s ∧ (∀ i, InputLaw (s.input i)) ∧
    (s.session.state = .closed → s.capture.streaming = false)

/-! ## The cutoff unit (chapter 7) -/

/-- The latch law (R127) and its two companions: the cause set is empty exactly while the latch is
CLEAR (R127), and while CUTOFF_N is asserted the latch is TRIPPED with PIN (R128). -/
abbrev CutoffLaw (s : State) : Prop :=
  (s.cutoff.latch = .tripped → ∀ c, (s.chan c).member = true → (s.chan c).state = .forced) ∧
    (s.cutoff.latch = .clear → ∀ c, (s.chan c).state ≠ .forced) ∧
    (s.cutoff.latch = .clear ↔ s.cutoff.causes = CauseSet.empty) ∧
    (s.cutoff.level = .low → s.cutoff.latch = .tripped ∧ s.cutoff.causes.pin = true)

/-! ## The link (chapter 8) -/

/-- TXD is not idle while a reply waits or a report is eligible (R152). -/
abbrev TxdLaw (s : State) : Prop :=
  s.link.transmitter = .idle → s.link.replyQueue = [] ∧ s.session.eligible = none

/-- The bounds of the link's queues and cache, one cache entry a tag, and the cache empty while the
session is CLOSED (R145, R148, R149); the receiver not listening during start-up (R155, log 32); and
TXD kept busy (R152). -/
abbrev LinkLaw (s : State) : Prop :=
  s.link.requestQueue.length ≤ 4 ∧ s.link.replyQueue.length ≤ 4 ∧ s.link.cache.length ≤ 8 ∧
    (s.link.cache.map CacheEntry.tag).Nodup ∧
    (s.session.state = .closed → s.link.cache = []) ∧
    (s.link.listened ≤ Config.characterTime ∧ (s.startUp = true → s.link.listened = 0)) ∧ TxdLaw s

/-! ## Sessions and reports (chapter 9) -/

/-- The place of a report state in the queue: SENT, then RESEND, then NEW (R164). -/
def ReportState.rank (r : ReportState) : Nat :=
  match r with
  | .sent => 0
  | .resend => 1
  | .new => 2

/-- The reports of a queue carry consecutive sequences up to the next one (R164). -/
def NumberedTo (next : Half) (reports : List Report) : Prop :=
  match reports with
  | [] => True
  | r :: rest => r.sequence + BitVec.ofNat 16 (rest.length + 1) = next ∧ NumberedTo next rest

/-- Two reports are not both a NEW MISSED of one channel and cause (R166). -/
def notTwins (a b : Report) : Bool :=
  match a.body, b.body with
  | .missed q, .missed r =>
    a.state != .new || b.state != .new || q.channel != r.channel || q.cause != r.cause
  | _, _ => true

/-- The report queue law (R164, R166). -/
def QueueLaw (se : Session) : Prop :=
  se.reports.length ≤ 32 ∧ NumberedTo se.nextSequence se.reports ∧ se.unacknowledged ≤ 8 ∧
    se.reports.Pairwise (fun a b => a.state.rank ≤ b.state.rank) ∧
    se.reports.Pairwise (fun a b => notTwins a b = true) ∧
    ∀ r ∈ se.reports, r.session = se.number

/-- What a CLOSED session holds (R158, R159). -/
abbrev ClosedLaw (se : Session) : Prop :=
  se.state = .closed → se.reports = [] ∧ se.lost = LostCounts.zero ∧ se.silenceTimer = none ∧
    se.resendTimer = none ∧ se.silenceTimeout = none ∧ se.resendTime = none ∧ se.mask = none

/-- What an OPEN session holds: a number other than 0, its settings, and the silence timer running
exactly when its timeout is above 0 (R158, R160, R162). -/
abbrev OpenedLaw (se : Session) : Prop :=
  se.state = .opened → se.number ≠ 0 ∧ se.mask.isSome = true ∧ se.resendTime.isSome = true ∧
    se.silenceTimeout.isSome = true ∧
    (se.silenceTimer.isSome = true ↔ se.silenceTimeout ≠ some 0)

/-- The resend timer runs exactly while the resend time is above 0 and a report is SENT (R170). -/
abbrev ResendLaw (se : Session) : Prop :=
  se.state = .opened →
    (se.resendTimer.isSome = true ↔ se.resendTime ≠ some 0 ∧ 0 < se.sentCount)

/-- The laws of the session and report unit. -/
def SessionLaw (se : Session) : Prop :=
  QueueLaw se ∧ ClosedLaw se ∧ OpenedLaw se ∧ ResendLaw se

/-! ## All of them -/

/-- A safe state: every block keeps its laws. -/
def Lawful (s : State) : Prop :=
  StoreLaw s ∧ (∀ c, ChannelLaw (s.chan c)) ∧ PresetLaw s ∧ LineLaw s.line ∧ CaptureLaw s ∧
    CutoffLaw s ∧ LinkLaw s ∧ SessionLaw s.session

/-! ## Happenings -/

/-- Whether the head request may be executed and its KIND is one of `mine` (R146). -/
def servable (mine : Byte → Bool) (s : State) : Bool := (takeRequest mine s).isSome

/-- Whether the happening a command names is there to be taken. Where it is not, the command changes
nothing (log 2). -/
def happening (i : Instr) (s : State) : Bool :=
  match i with
  | .ident | .status | .openSession | .closeSession | .ackReports | .restart | .cutoff
  | .cutoffRelease | .setChannelOptions | .defineProgram | .appendSteps | .sealProgram
  | .discardProgram | .deleteProgram | .programInfo | .programRead | .bind | .enable | .stop
  | .halt | .fire | .channelStatus | .timebaseConfig | .setLine | .readTime | .captureConfig
  | .routeAdd | .routeRemove | .routeList | .readCaptures | .captureStream =>
    servable (fun k => kindOfCommand i == some k) s
  | .reject => servable namesNoRequest s
  | .frameComplete _ => hears s && awaitsLastByte s.link.framer
  | .invalidLenByte b => hears s && awaitsLength s.link.framer && invalidLen b
  | .interByteGapTimeout => gapReached s
  | .transmissionEnd =>
    match s.link.transmitter with
    | .idle => false
    | .sending _ left => decide (left ≤ 0)
  | .hardReset cause _ _ => resets cause
  | .startUpEnd => s.startUp && decide (Config.startUpTicks ≤ s.timeBase.toNat)
  | .lineRise => acceptedChange s.line.candidate s.line.filter.toNat == some .high
  | .lineFall => acceptedChange s.line.candidate s.line.filter.toNat == some .low
  | .lineStallDetected => stallReached s.line
  | .captureEdge i => (inputChange (s.input i)).isSome
  | .cutoffNAssertion => acceptedChange s.cutoff.candidate Config.cutoffFilter == some .low
  | .cutoffNDeassertion => acceptedChange s.cutoff.candidate Config.cutoffFilter == some .high
  | .silenceExpiry => timerExpired s.timeBase s.session.silenceTimer
  | .resendExpiry => timerExpired s.timeBase s.session.resendTimer
  | .headEntryDue c => headDue s c
  | .stepEnd c => (stepEndReached s c).any fun x => x.2.watch.isNone
  | .holdUntilTimeout c => (stepEndReached s c).any fun x => x.2.watch.isSome
  | .holdUntilEdge c => !(s.chan c).offers.isEmpty
  | .routeTrigger c => !(s.chan c).triggers.isEmpty
  | .stallNotice c => (s.chan c).stallNotices != 0
  | .linePresetTaken c => !(s.chan c).presets.isEmpty
  | .entryOverdueDiscard c => (s.chan c).queue.head?.any (overdue (chanNow s c))
  | .receivedByte _ => hears s
  | .timeBaseTick _ => true

/-- The happenings of one channel that the part itself takes on the tick they arise (R32, R36, R37,
R52, R53, R59). -/
def channelHappenings (c : Fin 8) : List Instr :=
  [.headEntryDue c, .stepEnd c, .holdUntilTimeout c, .holdUntilEdge c, .routeTrigger c,
   .stallNotice c, .linePresetTaken c, .entryOverdueDiscard c]

/-- The happenings of the part other than its channels', its requests and what comes from outside. -/
def unitHappenings : List Instr :=
  [.interByteGapTimeout, .transmissionEnd, .startUpEnd, .lineRise, .lineFall, .lineStallDetected,
   .cutoffNAssertion, .cutoffNDeassertion, .silenceExpiry, .resendExpiry] ++
    allInputs.map Instr.captureEdge

/-- No happening of this tick is outstanding: a run that keeps the spec's timing lets the time base
tick only in such a state (log 4). -/
def Settled (s : State) : Prop :=
  ∀ i ∈ unitHappenings ++ allChannels.flatMap channelHappenings, happening i s = false

/-! ## Requests -/

/-- The request `r` stands at the head of the request queue and may be executed (R145, R146). -/
abbrev Serves (s : State) (r : Request) : Prop :=
  s.link.requestQueue.head? = some r ∧ canExecute s = true

/-- The state in which the head request has left the request queue (R145). -/
def popRequest (s : State) : State :=
  { s with link := { s.link with requestQueue := s.link.requestQueue.tail } }

/-- The reply to a request: its KIND plus 80h, its TAG, the result code, the flags byte with REPEAT
clear, and the fields (R146, section 10.2). -/
def replyTo (r : Request) (result : Result) (fields : List Byte) : Frame :=
  { kind := r.kind + 0x80, tag := r.tag, payload := result.code :: 0 :: fields }

/-- A request is executed: from the state `s1` that its effect leaves, its reply enters the reply
queue and, in an OPEN session, the cache, and the arbiter chooses (R146, R148, R149, R152). -/
def Executed (i : Instr) (s : State) (r : Request) (result : Result) (fields : List Byte)
    (s1 : State) : Prop :=
  exec i s = .next (concludeRequest r (replyTo r result fields) s1)

/-- n fields of 0 (R147, R173, R177). -/
def zeros (n : Nat) : List Byte := List.replicate n 0

/-- The byte names the channel (R23). -/
abbrev NamesChannel (b : Byte) (c : Fin 8) : Prop := b.toNat = c.val

/-- The byte names the program id (R1). -/
abbrev NamesProgram (b : Byte) (q : Fin 32) : Prop := b.toNat = q.val + 1

/-- The requests that need a session and are of fixed length, less the program-changing ones: the
payload length of section 10.4 and the number of reply fields of section 10.5. -/
def sessionRequests : List (Instr × Nat × Nat) :=
  [(.closeSession, 1, 2), (.ackReports, 2, 3), (.cutoffRelease, 0, 3), (.setChannelOptions, 3, 3),
   (.programInfo, 1, 6), (.programRead, 3, 3), (.bind, 13, 3), (.enable, 1, 1), (.stop, 1, 1),
   (.halt, 1, 1), (.fire, 8, 7), (.channelStatus, 1, 38), (.timebaseConfig, 3, 4),
   (.setLine, 4, 8), (.readTime, 0, 14), (.captureConfig, 4, 3), (.routeAdd, 3, 2),
   (.routeRemove, 1, 1), (.routeList, 0, 1), (.readCaptures, 1, 4), (.captureStream, 1, 2)]

/-- The requests that need no session: payload length and number of reply fields (R147, sections
10.4 and 10.5). -/
def openRequests : List (Instr × Nat × Nat) :=
  [(.ident, 0, 13), (.status, 1, 36), (.openSession, 5, 2), (.restart, 0, 0), (.cutoff, 0, 3)]

/-- The program-changing requests of fixed length and their payload length (R5, section 10.4). -/
def programRequests : List (Instr × Nat) :=
  [(.defineProgram, 4), (.sealProgram, 1), (.discardProgram, 1), (.deleteProgram, 1)]

/-- The KIND values that section 10.1 assigns to a request. -/
def requestKinds : List Byte :=
  [0x01, 0x02, 0x03, 0x04, 0x05, 0x06, 0x08, 0x09, 0x0A, 0x10, 0x11, 0x12, 0x13, 0x14, 0x15, 0x16,
   0x20, 0x21, 0x22, 0x23, 0x24, 0x25, 0x28, 0x29, 0x2A, 0x30, 0x31, 0x32, 0x33, 0x34, 0x35]

/-- The fields of a reply to a program-changing request: the detail and the free-slot count (R5). -/
def detailAndFree (s : State) (detail : Byte) : List Byte :=
  detail :: le16 (BitVec.ofNat 16 s.store.freeSlots)

/-! ## Ends of work -/

/-- The FIRING_END a channel's firing gives when it ends at point `e`, if a firing and no pass is in
progress (R42). -/
def endReports (c : Fin 8) (ch : Channel) (e : Word) (o : FiringOutcome) : List ReportBody :=
  match ch.firing with
  | none => []
  | some f =>
    match f.entry with
    | none => []
    | some x =>
      [.firingEnd { channel := c, number := x.number, source := x.source, trigger := x.trigger,
                    due := x.due, start := f.start, lateness := f.lateness.getD 0, endPoint := e,
                    outcome := o }]

/-- The MISSED of a flush, with the number flushed and the tail entry's fields; none of an empty
queue (R66). -/
def flushReports (c : Fin 8) (ch : Channel) (cause : MissedCause) : List ReportBody :=
  match ch.queue.getLast? with
  | none => []
  | some x =>
    [.missed { channel := c, cause := cause, count := BitVec.ofNat 16 ch.queue.length,
               number := some x.number, source := x.source, trigger := x.trigger,
               due := some x.due }]

/-- The reports of one event, judged one at a time in their order (R165). -/
def submitAll (reports : List ReportBody) (se : Session) : Session :=
  reports.foldl Session.submit se

/-- A channel whose work has been ended by HALT or the cutoff, in the state and at the level given:
nothing is left, and the counters have moved (R27, R45, R66, R132). -/
def Channel.stopped (ch : Channel) (state : ChanState) (output : Level) : Channel :=
  { ch with
    state := state, output := output, firing := none, queue := [], pending := none
    aborted := if (ch.firing.bind Firing.entry).isSome then ch.aborted + 1 else ch.aborted
    missed := ch.missed + BitVec.ofNat 16 ch.queue.length }

/-- A session close as its rule lists it (R159): the settings, timers, reports and lost counts go,
and the number and the next sequence stay. -/
def Session.closed (se : Session) (cause : CloseCause) : Session :=
  { state := .closed, number := se.number, lastClose := cause, silenceTimeout := none,
    resendTime := none, mask := none, silenceTimer := none, resendTimer := none, reports := [],
    nextSequence := se.nextSequence, lost := LostCounts.zero }

/-- The OPEN program of `s` is discarded in `t`: its record is EMPTY, its slots are free again and
every other program is as it was (R16). -/
def OpenDiscarded (s t : State) : Prop :=
  (∀ q, t.prog q = if (s.prog q).state = .opened then Program.none else s.prog q) ∧
    t.store.freeSlots = s.store.freeSlots +
      ((allPrograms.filter fun q => (s.prog q).state == .opened).map fun q =>
        (s.prog q).steps.length).sum

/-- The MISSED reports of entries lost one after another (R45, R71). -/
def lostReports (c : Fin 8) (cause : MissedCause) (entries : List Entry) : List ReportBody :=
  entries.map fun x =>
    .missed { channel := c, cause := cause, count := 1, number := some x.number,
              source := x.source, trigger := x.trigger, due := some x.due }

/-- The channel with the running step and the firing gone, and the counter of its outcome moved
(R34, R45). -/
def Channel.ended (ch : Channel) (o : FiringOutcome) : Channel :=
  { ch with
    firing := none
    completed := if o = .complete then ch.completed + 1 else ch.completed
    aborted := if o = .complete then ch.aborted else ch.aborted + 1 }

/-- An entry is overdue beyond the limit at point `e`: reached, with a lateness above the late limit
under DEFER and above 0 under DROP (R63). -/
abbrev OverdueAt (b : Binding) (e : Word) (x : Entry) : Prop :=
  atOrAfter e x.due = true ∧
    (if b.overlap = .defer then b.lateLimit.toNat else 0) < (e - x.due).toNat

/-! ## Steps on the wire -/

/-- A carried step fails the step check (R8, R174): kind code 2 or 3, duration 0, or HOLD_UNTIL with
input 4 to 7. -/
def stepFails (g : Byte × Byte × Byte × Byte) : Bool :=
  2 ≤ g.2.2.2.toNat % 4 || (g.1 == 0 && g.2.1 == 0 && g.2.2.1 == 0) ||
    (g.2.2.2.toNat % 4 == 1 && 4 ≤ g.2.2.2.toNat / 16 % 8)

/-- The bytes of carried steps (section 10.3). -/
def groupBytes (groups : List (Byte × Byte × Byte × Byte)) : List Byte :=
  groups.flatMap fun g => [g.1, g.2.1, g.2.2.1, g.2.2.2]

/-- What a carried step that passes the check is stored as (R2, section 10.3). -/
def StoredAs (g : Byte × Byte × Byte × Byte) (st : ProgStep) : Prop :=
  st.duration.toNat = g.1.toNat + 256 * g.2.1.toNat + 65536 * g.2.2.1.toNat ∧
    st.level.code = g.2.2.2.toNat / 4 % 4 ∧
    match st.kind with
    | .drive => g.2.2.2.toNat % 4 = 0
    | .holdUntil input edge =>
      g.2.2.2.toNat % 4 = 1 ∧ input.val = g.2.2.2.toNat / 16 % 8 ∧
        edge.code.toNat = g.2.2.2.toNat / 128

/-! ## Samples and steps -/

/-- What one sample `x` makes of the candidate `k` of an input accepted at level `a` (R89). -/
def Sampled (a : Level) (k : Option Candidate) (x : Level) (k' : Option Candidate) : Prop :=
  (x = a → k' = none) ∧
    (x ≠ a → ∀ n, k = some { level := x, count := n } →
      k' = some { level := x, count := n + 1 }) ∧
    (x ≠ a → k = none → k' = some { level := x, count := 1 })

/-- The level a step drives under an idle level (R22). -/
def stepLevel (idle : Level) (l : StepLevel) : Level :=
  match l, idle with
  | .low, _ => .low
  | .high, _ => .high
  | .idle, _ => idle
  | .active, .low => .high
  | .active, .high => .low

/-- The channel runs the step `st` with index `i` from point `e` in firing `f`: its end point, its
watch and its level (R22, R32, R36). -/
def runsStep (idle : Level) (f : Firing) (i : Nat) (st : ProgStep) (e : Word) (ch : Channel) :
    Channel :=
  { ch with
    firing := some { f with stepIndex := i, stepStart := e,
                            stepEnd := e + st.duration.setWidth 32,
                            watch := match st.kind with
                                     | .drive => none
                                     | .holdUntil input edge =>
                                       some { input := input, edge := edge } }
    output := stepLevel idle st.level }

/-- A start at point `p`: the fields of a firing of entry `x`, or of a CONTINUOUS pass, before step
0 begins (R29 to R31). -/
def startedAt (x : Option Entry) (loopCount : Half) (p : Word) : Firing :=
  { entry := x, lateness := x.map fun y => p - y.due, start := p, stepIndex := 0, stepStart := p,
    stepEnd := p, loopRuns := loopCount - 1, watch := none }

/-- Command `i` ends the running step of channel `c` at point `e`, and `s1` is the state in which
the program goes on: a DRIVE step at its end point (R32), a HOLD_UNTIL step at its timeout, which
STEP_TIMEOUT tells (R37, R43), or at the point of the oldest edge offered when that is the edge it
watches (R36; the edge is not stamped before the step began, log 13). -/
def EndsStep (i : Instr) (s : State) (c : Fin 8) (b : Binding) (f : Firing) (e : Word)
    (s1 : State) : Prop :=
  (s.chan c).active = some b ∧ (s.chan c).firing = some f ∧ (s.chan c).inService = true ∧
    ((i = .stepEnd c ∧ f.watch = none ∧ atOrAfter (chanNow s c) f.stepEnd = true ∧
        e = f.stepEnd ∧ s1 = s) ∨
      (i = .holdUntilTimeout c ∧ f.watch ≠ none ∧ atOrAfter (chanNow s c) f.stepEnd = true ∧
        e = f.stepEnd ∧
        s1 = submit s (.stepTimeout c (f.entry.map Entry.number) f.stepIndex)) ∨
      (i = .holdUntilEdge c ∧
        ∃ o rest, (s.chan c).offers = o :: rest ∧
          f.watch = some { input := o.input, edge := o.edge } ∧
          e = pointOfStamp (s.chan c) o.stamp ∧ atOrAfter e f.stepStart = true ∧
          s1 = s.setChan c { s.chan c with offers := rest }))

/-- From `s`, in which channel `c` has a TRIGGERED firing in progress under binding `b`, the firing
ends at point `e` with outcome `o` and the examination follows, which leaves `t` (R34, R42, R45,
R62, R63, R78, R79): the pending binding becomes active and BINDING_APPLIED is submitted; the head
entries `lost` are discarded as LATE, up to the first, of `kept`, that is not overdue; if that one's
due point is reached it starts at `e`; else a DRAINING channel with no entry left goes to OFF, and
any other goes READY, or stays DRAINING, at the idle level. -/
def FiringEnds (s : State) (c : Fin 8) (b : Binding) (e : Word) (o : FiringOutcome) (t : State) :
    Prop :=
  ∀ (b1 : Binding) (lost kept : List Entry), b1 = (s.chan c).pending.getD b →
    (s.chan c).queue = lost ++ kept → (∀ x ∈ lost, OverdueAt b1 e x) →
    (∀ x ∈ kept.head?, ¬ OverdueAt b1 e x) →
    ∀ (ch : Channel) (store : Store) (reports : List ReportBody),
      ch = { (s.chan c).ended o with
             active := some b1, pending := none, queue := kept
             missed := (s.chan c).missed + BitVec.ofNat 16 lost.length } →
      store = (if (s.chan c).pending.isSome then lowerUse s b.program else s).store →
      reports = endReports c (s.chan c) e o ++
        (match (s.chan c).pending with
         | none => []
         | some p => [.bindingApplied c p.program]) ++ lostReports c .late lost →
      (∀ x rest st more, kept = x :: rest → atOrAfter e x.due = true →
        (s.prog b1.program).steps = st :: more →
        t = { s.setChan c
                (runsStep b1.idle (startedAt (some x) (s.prog b1.program).loopCount e) 0 st e
                  { ch with state := if ch.state = .draining then .draining else .running,
                            queue := rest }) with
              store := store, session := submitAll reports s.session }) ∧
      (kept = [] → ch.state = .draining →
        t = { s.setChan c { ch with state := .off, output := b1.idle } with
              store := store
              session := submitAll (reports ++ [.channelOff c .drained]) s.session }) ∧
      ((∀ x ∈ kept.head?, atOrAfter e x.due = false) →
        ¬ (kept = [] ∧ ch.state = .draining) →
        t = { s.setChan c
                { ch with state := if ch.state = .running then .ready else ch.state,
                          output := b1.idle } with
              store := store, session := submitAll reports s.session })

/-! ## Entries and moves -/

/-- From `s`, in which channel `c` takes triggers under the TRIGGERED binding `b`, the new entry is
created, which leaves `t` (R50, R51, R54, R57, R59 to R61): it takes its place in due order and
the next firing number. At the head with its due point reached it is handled at once: while a firing
is in progress DEFER holds it, and DROP discards it as BUSY with the due entries `lost` that follow
it; on a READY channel it starts now, and under DROP the due entries `lost` behind it go as BUSY. -/
def EntryCreated (s : State) (c : Fin 8) (b : Binding) (entry : Entry) (t : State) : Prop :=
  ∀ (now : Word) (queue : List Entry) (ch : Channel), now = chanNow s c →
    queue = insertEntry now entry (s.chan c).queue →
    ch = { s.chan c with queue := queue, nextNumber := (s.chan c).nextNumber + 1,
                         accepted := (s.chan c).accepted + 1 } →
    (¬ (queue.head? = some entry ∧ atOrAfter now entry.due = true) → t = s.setChan c ch) ∧
    ∀ rest, queue = entry :: rest → atOrAfter now entry.due = true →
      (ch.firing ≠ none → b.overlap = .defer → t = s.setChan c ch) ∧
      (∀ lost kept, ch.firing ≠ none → ch.state = .running → b.overlap = .drop →
        rest = lost ++ kept → (∀ y ∈ lost, atOrAfter now y.due = true) →
        (∀ y ∈ kept.head?, atOrAfter now y.due = false) →
        t = { s.setChan c
                { ch with queue := kept
                          missed := ch.missed + BitVec.ofNat 16 (lost.length + 1) } with
              session := submitAll (lostReports c .busy (entry :: lost)) s.session }) ∧
      ∀ st more started, ch.firing = none → ch.state = .ready →
        (s.prog b.program).steps = st :: more →
        started = runsStep b.idle (startedAt (some entry) (s.prog b.program).loopCount now) 0 st
          now { ch with state := .running, queue := rest } →
        (b.overlap = .defer → t = s.setChan c started) ∧
        ∀ lost kept, b.overlap = .drop → rest = lost ++ kept →
          (∀ y ∈ lost, atOrAfter now y.due = true) →
          (∀ y ∈ kept.head?, atOrAfter now y.due = false) →
          t = { s.setChan c
                  { started with queue := kept
                                 missed := ch.missed + BitVec.ofNat 16 lost.length } with
                session := submitAll (lostReports c .busy lost) s.session }

/-- The moves tried at time `now` and line value `line` make `cap1` and `se1` of the capture unit
`cap`, streaming, and the OPEN session `se` (R121, R125, R165, R167): with an entry logged and room
for an ordinary report, lost counts that are waiting go ahead as REPORTS_LOST; with room left, the
oldest entries leave, one CAPTURE report each, until two free slots are left, and a drop count above
0 becomes a GAP entry behind the log as soon as one has left. -/
def MovesTo (now line : Word) (cap : Capture) (se : Session) (cap1 : Capture) (se1 : Session) :
    Prop :=
  ∀ (cap0 : Capture) (se0 : Session) (n : Nat),
    se0 = (if cap.log ≠ [] ∧ se.lost ≠ LostCounts.zero ∧ 3 ≤ 32 - se.reports.length then
             { se with
               reports := se.reports ++ [{ sequence := se.nextSequence
                                           body := .reportsLost se.lost
                                           session := se.number, state := .new }]
               nextSequence := se.nextSequence + 1
               lost := LostCounts.zero }
           else se) →
    cap0 = (if cap.log ≠ [] ∧ cap.dropCount ≠ 0 ∧ 3 ≤ 32 - se0.reports.length then
              { cap with
                log := cap.log ++ [{ number := cap.nextNumber, input := cap.lastDropped.getD 0
                                     kind := .gap, time := now, line := line
                                     value := cap.dropCount.setWidth 24, saturated := false }]
                nextNumber := cap.nextNumber + 1
                dropCount := 0
                lastDropped := none }
            else cap) →
    n = min cap0.log.length (32 - se0.reports.length - 2) →
    cap1 = { cap0 with log := cap0.log.drop n } ∧
    se1 = { se0 with
            reports := se0.reports ++ (cap0.log.take n).zipIdx.map fun x =>
              { sequence := se0.nextSequence + BitVec.ofNat 16 x.2, body := .capture x.1
                session := se0.number, state := .new }
            nextSequence := se0.nextSequence + BitVec.ofNat 16 n }

/-! ## Frames on RXD -/

/-- The state after a run of bytes on RXD, each one RECEIVED_BYTE (R142). -/
def afterBytes (bytes : List Byte) (s : State) : State :=
  match bytes with
  | [] => s
  | b :: rest =>
    match exec (.receivedByte b) s with
    | .next t => afterBytes rest t
    | _ => s

end Sys2Proof.Machine
end

