-- ==== Sys2Proof/Certificates/Slice0/Obligations.lean ====
section
/-! DEFINITION. The statements for the provers. -/

open Sys2Proof Sys2Proof.Machine

/-! ## The whole part -/

/-- A step runs the command at the front of the queue on the state with the rest of it. That
commands wait in a queue is the form of the model (log 1, log 3). -/
def Obligations.StepRunsFrontCommand : Prop :=
  ∀ (c : Instr) (s : State), step { s with pending := c :: s.pending } = exec c s

/-- The state right after reset keeps every law of the part. The values it rests on that the spec
does not give are those of log 17 and log 18. -/
def Obligations.ResetIsLawful : Prop := Lawful State.reset

/-- HARD_RESET gives every block its reset values and the strapped rate, and a LOW pulse on RESET_N
of less than 10 microseconds does nothing (R18, R47, R86, R88, R103, R126, R139, R140, R155,
R158). That the pins and the commands waiting are kept is the model's choice (log 23). -/
def Obligations.HardResetGivesResetValues : Prop :=
  ∀ (s : State) (baud1 baud0 : Level) (n : Nat),
    (n < 10 → exec (.hardReset (.resetN n) baud1 baud0) s = .next s) ∧
    ∀ cause, (cause = .powerOn ∨ (cause = .resetN n ∧ 10 ≤ n)) →
      ∃ t, exec (.hardReset cause baud1 baud0) s = .next t ∧
        t.timeBase = 0 ∧ t.startUp = true ∧
        (∀ q, t.prog q = { state := .empty, steps := [], loopStart := 0, loopCount := 0,
                           useCount := 0 }) ∧
        t.store.freeSlots = 512 ∧
        (∀ c, (t.chan c).state = .off ∧ (t.chan c).active = none ∧ (t.chan c).pending = none ∧
          (t.chan c).queue = [] ∧ (t.chan c).firing = none ∧ (t.chan c).output = .low ∧
          (t.chan c).member = true ∧ (t.chan c).safeLevel = .low ∧ (t.chan c).accepted = 0 ∧
          (t.chan c).completed = 0 ∧ (t.chan c).aborted = 0 ∧ (t.chan c).missed = 0 ∧
          (t.chan c).nextNumber = 0 ∧ (t.chan c).presetsTaken = 0 ∧ (t.chan c).triggers = [] ∧
          (t.chan c).offers = [] ∧ (t.chan c).stallNotices = 0 ∧ (t.chan c).presets = []) ∧
        t.line.lineBase = 0 ∧ t.line.lineState = .waiting ∧ t.line.filter = 0 ∧
        t.line.stallLimit = 0 ∧ t.line.candidate = none ∧ t.line.lastEdge = none ∧
        t.line.period = none ∧ t.line.freshEdges = 0 ∧ t.line.quiet = none ∧
        t.line.presetsMade = 0 ∧
        (∀ i, t.input i = { mode := .off, logEdges := .both, filter := 0, level := none,
                            candidate := none, measure := none }) ∧
        (∀ id, t.route id = none) ∧ t.capture.log = [] ∧ t.capture.nextNumber = 0 ∧
        t.capture.dropCount = 0 ∧ t.capture.lastDropped = none ∧ t.capture.streaming = false ∧
        t.cutoff.latch = .clear ∧
        t.cutoff.causes = { pin := false, request := false, silence := false } ∧
        t.cutoff.candidate = none ∧
        t.link.rate.bitsPerSecond =
          (if baud1 = .high then (if baud0 = .high then 3000000 else 1000000)
           else (if baud0 = .high then 460800 else 115200)) ∧
        t.link.framer = .hunt ∧ t.link.listened = 0 ∧ t.link.requestQueue = [] ∧
        t.link.replyQueue = [] ∧
        t.link.cache = [] ∧ t.link.transmitter = .idle ∧ t.link.crcErrors = 0 ∧
        t.link.frameErrors = 0 ∧ t.link.overruns = 0 ∧ t.link.restartPending = false ∧
        t.session = { state := .closed, number := 0, lastClose := .none,
                      silenceTimeout := none, resendTime := none, mask := none,
                      silenceTimer := none, resendTimer := none, reports := [],
                      nextSequence := 1,
                      lost := { firing := 0, missed := 0, step := 0, channel := 0, line := 0,
                                urgent := 0 } } ∧
        t.pins = s.pins ∧ t.pending = s.pending

/-- The model's choice (log 2): a command whose happening is not there to be taken changes
nothing. -/
def Obligations.NoHappeningNoChange : Prop :=
  ∀ (i : Instr) (s : State), happening i s = false → exec i s = .next s

/-! ## The request path -/

/-- Every request that is executed leaves the request queue and yields exactly one reply, of its own
KIND plus 80h, or REJECT, and its TAG, with REPEAT clear. The reply stands at the tail of the
reply queue, or the arbiter has started a frame in the same event; in an OPEN session it is the
newest entry of the cache (R145, R146, R148, R149, R152). That a row serves the head request is
log 1, when the arbiter acts log 7, and which frame it takes log 8. -/
def Obligations.EveryRequestIsAnsweredOnce : Prop :=
  ∀ (i : Instr) (s : State) (r : Request), Serves s r →
    (kindOfCommand i = some r.kind ∨ (i = .reject ∧ r.kind ∉ requestKinds)) →
    ∃ (t : State) (f : Frame) (result : Result) (fields : List Byte),
      exec i s = .next t ∧
      f.kind = (if i = .reject then 0xFF else r.kind + 0x80) ∧ f.tag = r.tag ∧
      f.payload = result.code :: 0 :: fields ∧
      t.link.requestQueue = s.link.requestQueue.tail ∧
      (s.link.transmitter ≠ .idle →
        t.link.transmitter = s.link.transmitter ∧
          t.link.replyQueue = s.link.replyQueue ++ [f]) ∧
      (s.link.transmitter = .idle →
        ∃ g, t.link.transmitter = .sending g g.wireTime ∧
          (g :: t.link.replyQueue = s.link.replyQueue ++ [f] ∨
            t.link.replyQueue = s.link.replyQueue ++ [f])) ∧
      (t.session.state = .opened →
        t.link.cache.getLast? = some { tag := r.tag, crc := r.crc, reply := f })

/-- The KIND is judged first, then the payload length, then the session: REJECT for a KIND that
names no request, BAD_LENGTH for a payload of another length than section 10.4 gives, whatever the
session, and NO_SESSION where a session is needed and CLOSED, each with the reply fields of section
10.5 at 0 and nothing changed; a program-changing request still tells the free slots (R146, R147,
R173, R174). -/
def Obligations.KindThenLengthThenSession : Prop :=
  ∀ (s : State) (r : Request), Serves s r →
    (r.kind ∉ requestKinds →
      exec .reject s =
        .next (concludeRequest r { kind := 0xFF, tag := r.tag, payload := [0x01, 0x00] }
          (popRequest s))) ∧
    (∀ e ∈ sessionRequests ++ openRequests, kindOfCommand e.1 = some r.kind →
      r.payload.length ≠ e.2.1 →
      Executed e.1 s r .badLength (zeros e.2.2) (popRequest s)) ∧
    (∀ e ∈ sessionRequests, kindOfCommand e.1 = some r.kind → r.payload.length = e.2.1 →
      s.session.state = .closed →
      Executed e.1 s r .noSession (zeros e.2.2) (popRequest s)) ∧
    (∀ e ∈ programRequests, kindOfCommand e.1 = some r.kind → r.payload.length ≠ e.2 →
      Executed e.1 s r .badLength (detailAndFree s 0) (popRequest s)) ∧
    (∀ e ∈ programRequests, kindOfCommand e.1 = some r.kind → r.payload.length = e.2 →
      s.session.state = .closed →
      Executed e.1 s r .noSession (detailAndFree s 0) (popRequest s)) ∧
    (r.kind = 0x11 →
      (¬ ∃ id n bytes, r.payload = id :: n :: bytes ∧ bytes.length = 4 * n.toNat) →
      Executed .appendSteps s r .badLength (detailAndFree s 0) (popRequest s)) ∧
    (r.kind = 0x11 → s.session.state = .closed →
      (∃ id n bytes, r.payload = id :: n :: bytes ∧ bytes.length = 4 * n.toNat) →
      Executed .appendSteps s r .noSession (detailAndFree s 0) (popRequest s))

/-- IDENT tells the part's identity and capacities in every session state and changes nothing
(R154). -/
def Obligations.IdentTellsCapacities : Prop :=
  ∀ (s : State) (r : Request), Serves s r → r.kind = 0x01 →
    (r.payload = [] →
      Executed .ident s r .ok [0x44, 0x08, 0x24, 1, 8, 4, 32, 0x00, 0x02, 16, 16, 64, 32]
        (popRequest s)) ∧
    (r.payload ≠ [] → Executed .ident s r .badLength (zeros 13) (popRequest s))

/-- STATUS tells the fields of R172 as they stand, in every session state, and with clear set to yes
sets the three link counters to 0 in the same event. -/
def Obligations.StatusTellsAndClears : Prop :=
  ∀ (s : State) (r : Request), Serves s r → r.kind = 0x02 →
    (∀ clear, r.payload = [clear] → 2 ≤ clear.toNat →
      Executed .status s r .badValue (zeros 36) (popRequest s)) ∧
    ∀ clear : Bool, r.payload = [if clear then 1 else 0] →
      Executed .status s r .ok
        ([s.session.state.code, s.session.number, s.session.lastClose.code, s.cutoff.latch.code,
          s.cutoff.causes.code, s.line.lineState.code] ++
         le16 (BitVec.ofNat 16 s.store.freeSlots) ++
         le16 (BitVec.ofNat 16 (512 - s.store.freeSlots)) ++
         [byteOf (allPrograms.filter fun q => (s.prog q).state == .sealed).length,
          if (openProgram s).isSome then 1 else 0,
          match openProgram s with
          | some q => byteOf (q.val + 1)
          | none => 0,
          byteOf s.session.reports.length, byteOf s.session.unacknowledged] ++
         le16 s.session.lost.firing ++ le16 s.session.lost.missed ++ le16 s.session.lost.step ++
         le16 s.session.lost.channel ++ le16 s.session.lost.line ++ le16 s.session.lost.urgent ++
         [byteOf s.capture.log.length] ++ le16 s.capture.dropCount ++ le16 s.link.crcErrors ++
         le16 s.link.frameErrors ++ le16 s.link.overruns)
        (if clear then
          { popRequest s with
            link := { (popRequest s).link with crcErrors := 0, frameErrors := 0, overruns := 0 } }
         else popRequest s)

/-- PROGRAM_INFO, PROGRAM_READ, READ_TIME and ROUTE_LIST tell what they name and change nothing
(R12, R13, R100, R116). -/
def Obligations.ReadingRequestsTell : Prop :=
  ∀ (s : State) (r : Request), Serves s r → s.session.state = .opened →
    (r.kind = 0x15 → ∀ id, r.payload = [id] →
      ((id = 0 ∨ 32 < id.toNat) →
        Executed .programInfo s r .badValue (zeros 6) (popRequest s)) ∧
      ∀ q, NamesProgram id q →
        Executed .programInfo s r .ok
          ([(s.prog q).state.code, byteOf (s.prog q).steps.length, byteOf (s.prog q).loopStart] ++
            le16 (s.prog q).loopCount ++ [byteOf (s.prog q).useCount]) (popRequest s)) ∧
    (r.kind = 0x16 → ∀ id first count, r.payload = [id, first, count] →
      ((id = 0 ∨ 32 < id.toNat ∨ count = 0 ∨ 16 < count.toNat ∨ 63 < first.toNat) →
        Executed .programRead s r .badValue (zeros 3) (popRequest s)) ∧
      ∀ q, NamesProgram id q → 1 ≤ count.toNat → count.toNat ≤ 16 → first.toNat ≤ 63 →
        ((s.prog q).state = .empty →
          Executed .programRead s r .state (zeros 3) (popRequest s)) ∧
        ((s.prog q).state ≠ .empty →
          Executed .programRead s r .ok
            ([(s.prog q).state.code, byteOf (s.prog q).steps.length,
              byteOf (min count.toNat ((s.prog q).steps.length - first.toNat))] ++
             (((s.prog q).steps.drop first.toNat).take count.toNat).flatMap fun st =>
               le24 st.duration ++ [st.descriptor]) (popRequest s))) ∧
    (r.kind = 0x2A → r.payload = [] →
      Executed .readTime s r .ok
        (le32 s.timeBase ++ le32 s.line.lineBase ++
          [s.line.lineState.code, if s.line.period.isSome then 1 else 0] ++
          le32 (s.line.period.getD 0)) (popRequest s)) ∧
    (r.kind = 0x33 → r.payload = [] →
      Executed .routeList s r .ok
        (byteOf (allRoutes.filter fun id => (s.route id).isSome).length ::
          allRoutes.flatMap fun id =>
            match s.route id with
            | some x => [byteOf id.val, byteOf x.input.val, x.edge.code, byteOf x.channel.val]
            | none => []) (popRequest s))

/-- CHANNEL_STATUS tells the channel record in every channel state and changes nothing (R46, section
10.5). -/
def Obligations.ChannelStatusTellsRecord : Prop :=
  ∀ (s : State) (r : Request) (b : Byte), Serves s r → r.kind = 0x25 →
    s.session.state = .opened → r.payload = [b] →
    (8 ≤ b.toNat → Executed .channelStatus s r .badValue (zeros 38) (popRequest s)) ∧
    ∀ c, NamesChannel b c → ∀ ch, s.chan c = ch →
      Executed .channelStatus s r .ok
        ([ch.state.code, levelCode ch.output,
          bitSet [ch.active.isSome, ch.pending.isSome, !ch.queue.isEmpty, ch.firing.isSome,
                  (ch.firing.bind Firing.entry).isSome]] ++
         (match ch.active with
          | none => zeros 12
          | some a => [byteOf (a.program.val + 1), a.base.code, a.mode.code, levelCode a.idle,
                       a.overlap.code, a.stall.code] ++ le32 (a.delay.setWidth 32) ++
                      le16 a.lateLimit) ++
         [match ch.pending with
          | none => 0
          | some p => byteOf (p.program.val + 1), byteOf ch.queue.length] ++
         (match ch.queue with
          | [] => zeros 4
          | x :: _ => le32 x.due) ++
         (match ch.firing.bind Firing.entry with
          | none => zeros 2
          | some x => le16 x.number) ++
         (match ch.firing with
          | none => zeros 3
          | some f => byteOf f.stepIndex :: le16 f.loopRuns) ++
         [if ch.member then 1 else 0, levelCode ch.safeLevel] ++ le16 ch.accepted ++
         le16 ch.completed ++ le16 ch.aborted ++ le16 ch.missed ++ le16 ch.nextNumber)
        (popRequest s)

/-! ## Programs -/

/-- DEFINE_PROGRAM opens an EMPTY record when no program is OPEN, and SEAL_PROGRAM fixes the OPEN
one when its loop start is below its step count; each tells why it is refused, and a refused one
changes nothing (R5, R6, R7, R9). -/
def Obligations.DefineAndSealBuildAProgram : Prop :=
  ∀ (s : State) (r : Request) (id : Byte), Serves s r → s.session.state = .opened →
    (r.kind = 0x10 → ∀ start c0 c1, r.payload = [id, start, c0, c1] →
      ((id = 0 ∨ 32 < id.toNat) →
        Executed .defineProgram s r .badValue (detailAndFree s 0xFD) (popRequest s)) ∧
      ∀ q, NamesProgram id q →
        (63 < start.toNat →
          Executed .defineProgram s r .badValue (detailAndFree s 0xFF) (popRequest s)) ∧
        (start.toNat ≤ 63 → (s.prog q).state ≠ .empty →
          Executed .defineProgram s r .state (detailAndFree s 0) (popRequest s)) ∧
        (start.toNat ≤ 63 → (s.prog q).state = .empty → (∃ p, (s.prog p).state = .opened) →
          Executed .defineProgram s r .defining (detailAndFree s 0) (popRequest s)) ∧
        (start.toNat ≤ 63 → (s.prog q).state = .empty → (∀ p, (s.prog p).state ≠ .opened) →
          Executed .defineProgram s r .ok (detailAndFree s 0)
            ((popRequest s).setProg q
              { state := .opened, steps := [], loopStart := start.toNat, loopCount := c1 ++ c0,
                useCount := 0 }))) ∧
    (r.kind = 0x12 → r.payload = [id] →
      ((id = 0 ∨ 32 < id.toNat) →
        Executed .sealProgram s r .badValue (detailAndFree s 0xFD) (popRequest s)) ∧
      ∀ q, NamesProgram id q →
        ((s.prog q).state ≠ .opened →
          Executed .sealProgram s r .state (detailAndFree s 0) (popRequest s)) ∧
        ((s.prog q).state = .opened → (s.prog q).steps.length ≤ (s.prog q).loopStart →
          Executed .sealProgram s r .badValue (detailAndFree s 0xFF) (popRequest s)) ∧
        ((s.prog q).state = .opened → (s.prog q).loopStart < (s.prog q).steps.length →
          Executed .sealProgram s r .ok (detailAndFree s (byteOf (s.prog q).steps.length))
            ((popRequest s).setProg q { s.prog q with state := .sealed })))

/-- APPEND_STEPS checks, in this order, the step count field, each carried step from the first to
the last, that the program is OPEN, that 64 steps hold it and that the pool has room; it appends all
the steps as carried, each taking a slot, or none (R2, R4, R6, R8, R174). -/
def Obligations.AppendAddsAllStepsOrNone : Prop :=
  ∀ (s : State) (r : Request) (id n : Byte) (groups : List (Byte × Byte × Byte × Byte)),
    Serves s r → r.kind = 0x11 → s.session.state = .opened →
    r.payload = id :: n :: groupBytes groups → groups.length = n.toNat →
    ((id = 0 ∨ 32 < id.toNat) →
      Executed .appendSteps s r .badValue (detailAndFree s 0xFD) (popRequest s)) ∧
    ∀ q, NamesProgram id q →
      ((n = 0 ∨ 16 < n.toNat) →
        Executed .appendSteps s r .badValue (detailAndFree s 0xFE) (popRequest s)) ∧
      (1 ≤ n.toNat → n.toNat ≤ 16 →
        (∀ before g after, groups = before ++ g :: after →
          (∀ x ∈ before, stepFails x = false) → stepFails g = true →
          Executed .appendSteps s r .badValue (detailAndFree s (byteOf before.length))
            (popRequest s)) ∧
        ((∀ x ∈ groups, stepFails x = false) →
          ((s.prog q).state ≠ .opened →
            Executed .appendSteps s r .state (detailAndFree s 0) (popRequest s)) ∧
          ((s.prog q).state = .opened →
            (64 < (s.prog q).steps.length + n.toNat →
              Executed .appendSteps s r .badValue (detailAndFree s 0x40) (popRequest s)) ∧
            ((s.prog q).steps.length + n.toNat ≤ 64 →
              (s.store.freeSlots < n.toNat →
                Executed .appendSteps s r .noSpace (detailAndFree s 0) (popRequest s)) ∧
              (n.toNat ≤ s.store.freeSlots →
                ∃ steps, List.Forall₂ StoredAs groups steps ∧
                  ∀ t, t = { popRequest s with store :=
                          { programs := s.store.programs.set q
                              { s.prog q with steps := (s.prog q).steps ++ steps }
                            freeSlots := s.store.freeSlots - n.toNat } } →
                    Executed .appendSteps s r .ok
                      (detailAndFree t (byteOf ((s.prog q).steps.length + n.toNat))) t)))))

/-- DISCARD_PROGRAM empties the OPEN record and DELETE_PROGRAM a SEALED one that no binding names;
the slots return to the pool in the same event; each is refused in another state, and DELETE_PROGRAM
with IN_USE while the use count is above 0 (R1, R4, R10, R11). -/
def Obligations.DiscardAndDeleteEmptyARecord : Prop :=
  ∀ (s : State) (r : Request) (id : Byte), Serves s r → s.session.state = .opened →
    r.payload = [id] →
    (r.kind = 0x13 ∧ (id = 0 ∨ 32 < id.toNat) →
      Executed .discardProgram s r .badValue (detailAndFree s 0xFD) (popRequest s)) ∧
    (r.kind = 0x14 ∧ (id = 0 ∨ 32 < id.toNat) →
      Executed .deleteProgram s r .badValue (detailAndFree s 0xFD) (popRequest s)) ∧
    ∀ q, NamesProgram id q → ∀ t, t = { popRequest s with store :=
        { programs := s.store.programs.set q
            { state := .empty, steps := [], loopStart := 0, loopCount := 0, useCount := 0 }
          freeSlots := s.store.freeSlots + (s.prog q).steps.length } } →
      (r.kind = 0x13 →
        ((s.prog q).state ≠ .opened →
          Executed .discardProgram s r .state (detailAndFree s 0) (popRequest s)) ∧
        ((s.prog q).state = .opened →
          Executed .discardProgram s r .ok (detailAndFree t 0) t)) ∧
      (r.kind = 0x14 →
        ((s.prog q).state ≠ .sealed →
          Executed .deleteProgram s r .state (detailAndFree s 0) (popRequest s)) ∧
        ((s.prog q).state = .sealed → (s.prog q).useCount ≠ 0 →
          Executed .deleteProgram s r .inUse (detailAndFree s 0) (popRequest s)) ∧
        ((s.prog q).state = .sealed → (s.prog q).useCount = 0 →
          Executed .deleteProgram s r .ok (detailAndFree t 0) t))

/-! ## Channel requests -/

/-- BIND judges the channel number, then its own fields, in every channel state: BAD_VALUE for a
channel above 7, a program id above 32, a code that names no value and a delay above 16,777,215. On
an OFF channel a program that is not SEALED is NOT_FOUND and a TRIGGERED binding of an endless one is
ENDLESS; else it installs the carried binding at once, moves the use counts and the output, and
submits nothing; program id 0 removes the binding. A refused BIND changes nothing (R14, R23, R73,
R74, R75, R98, R175). The coordinates of a channel that becomes LINE-bound are the model's form
(log 6, log 27). -/
def Obligations.BindInstallsOnOffChannel : Prop :=
  ∀ (s : State) (r : Request), Serves s r → r.kind = 0x20 → s.session.state = .opened →
    (∀ x rest, r.payload = x :: rest → rest.length = 12 → 8 ≤ x.toNat →
      Executed .bind s r .badValue (zeros 3) (popRequest s)) ∧
    ∀ (c : Fin 8) (fields : List Byte),
      fields = [(s.chan c).state.code, bindingProgram (s.chan c).active,
                bindingProgram (s.chan c).pending] →
      (∀ id base mode idle overlap stall d0 d1 d2 d3 l0 l1 : Byte,
        r.payload = [byteOf c.val, id, base, mode, idle, overlap, stall, d0, d1, d2, d3, l0, l1] →
        id ≠ 0 →
        (32 < id.toNat ∨ 1 < base.toNat ∨ 1 < mode.toNat ∨ 1 < idle.toNat ∨ 1 < overlap.toNat ∨
          1 < stall.toNat ∨
          16777215 < d0.toNat + 256 * d1.toNat + 65536 * d2.toNat + 16777216 * d3.toNat) →
        Executed .bind s r .badValue fields (popRequest s)) ∧
      ((s.chan c).state = .off →
        (∀ b : Binding, r.payload = byteOf c.val :: b.bytes →
          ((s.prog b.program).state ≠ .sealed →
            Executed .bind s r .notFound fields (popRequest s)) ∧
          ((s.prog b.program).state = .sealed → b.mode = .triggered →
            (s.prog b.program).loopCount = 0 →
            Executed .bind s r .endless fields (popRequest s)) ∧
          ((s.prog b.program).state = .sealed →
            ¬ (b.mode = .triggered ∧ (s.prog b.program).loopCount = 0) →
            Executed .bind s r .ok
              [0, byteOf (b.program.val + 1), bindingProgram (s.chan c).pending]
              ((releaseUse (raiseUse (popRequest s) b.program) (s.chan c).active).setChan c
                (if b.base = .line ∧ (s.chan c).lineBound = false then
                  { s.chan c with active := some b, output := b.idle,
                                  presetsTaken := s.line.presetsMade, coords := s.line.offsetSum,
                                  presets := [] }
                 else { s.chan c with active := some b, output := b.idle })))) ∧
        (∀ rest, r.payload = byteOf c.val :: 0 :: rest → rest.length = 11 →
          Executed .bind s r .ok [0, 0, bindingProgram (s.chan c).pending]
            ((releaseUse (popRequest s) (s.chan c).active).setChan c
              { s.chan c with active := none, output := .low })))

/-- BIND on a channel in service stages the carried binding behind the firing or pass in progress,
applies it in the same event in READY and in DRAINING TRIGGERED without a firing, and with program
id 0 withdraws the pending binding; another base or mode, an unsealed program and an endless program
in TRIGGERED mode are refused (R73, R74, R76 to R80). -/
def Obligations.BindStagesInService : Prop :=
  ∀ (s : State) (r : Request) (c : Fin 8), Serves s r → r.kind = 0x20 →
    s.session.state = .opened → ChannelLaw (s.chan c) →
    ((s.chan c).state = .ready ∨ (s.chan c).inService = true) →
    (∀ rest, r.payload = byteOf c.val :: 0 :: rest → rest.length = 11 →
      Executed .bind s r .ok
        [(s.chan c).state.code, bindingProgram (s.chan c).active, 0]
        ((releaseUse (popRequest s) (s.chan c).pending).setChan c
          { s.chan c with pending := none })) ∧
    ∀ (a b : Binding), (s.chan c).active = some a → r.payload = byteOf c.val :: b.bytes →
      ((s.prog b.program).state ≠ .sealed →
        Executed .bind s r .notFound
          [(s.chan c).state.code, byteOf (a.program.val + 1), bindingProgram (s.chan c).pending]
          (popRequest s)) ∧
      ((s.prog b.program).state = .sealed → b.mode = .triggered →
        (s.prog b.program).loopCount = 0 →
        Executed .bind s r .endless
          [(s.chan c).state.code, byteOf (a.program.val + 1), bindingProgram (s.chan c).pending]
          (popRequest s)) ∧
      ((s.prog b.program).state = .sealed →
        ¬ (b.mode = .triggered ∧ (s.prog b.program).loopCount = 0) →
        ((a.base ≠ b.base ∨ a.mode ≠ b.mode) →
          Executed .bind s r .baseChange
            [(s.chan c).state.code, byteOf (a.program.val + 1), bindingProgram (s.chan c).pending]
            (popRequest s)) ∧
        (a.base = b.base → a.mode = b.mode →
          ((s.chan c).firing ≠ none →
            Executed .bind s r .ok
              [(s.chan c).state.code, byteOf (a.program.val + 1), byteOf (b.program.val + 1)]
              ((releaseUse (raiseUse (popRequest s) b.program) (s.chan c).pending).setChan c
                { s.chan c with pending := some b })) ∧
          ((s.chan c).firing = none →
            Executed .bind s r .ok
              [(s.chan c).state.code, byteOf (b.program.val + 1), 0]
              (submit
                ((lowerUse (raiseUse (popRequest s) b.program) a.program).setChan c
                  { s.chan c with active := some b, output := b.idle })
                (.bindingApplied c b.program)))))

/-- ENABLE puts an OFF channel with an active binding into service: READY at the idle level in
TRIGGERED mode, RUNNING with the first pass started now in CONTINUOUS mode; it is refused with
CUTOFF_ACTIVE for a member while the latch is TRIPPED, then with STATE (R23, R24, R31). -/
def Obligations.EnablePutsIntoService : Prop :=
  ∀ (s : State) (r : Request) (x : Byte), Serves s r → r.kind = 0x21 →
    s.session.state = .opened → r.payload = [x] →
    (8 ≤ x.toNat → Executed .enable s r .badValue [0] (popRequest s)) ∧
    ∀ c, NamesChannel x c →
      ((s.chan c).member = true → s.cutoff.latch = .tripped →
        Executed .enable s r .cutoffActive [(s.chan c).state.code] (popRequest s)) ∧
      (¬ ((s.chan c).member = true ∧ s.cutoff.latch = .tripped) →
        ((s.chan c).state ≠ .off ∨ (s.chan c).active = none) →
        Executed .enable s r .state [(s.chan c).state.code] (popRequest s)) ∧
      (¬ ((s.chan c).member = true ∧ s.cutoff.latch = .tripped) → (s.chan c).state = .off →
        ∀ b, (s.chan c).active = some b →
          (b.mode = .triggered →
            Executed .enable s r .ok [1]
              ((popRequest s).setChan c { s.chan c with state := .ready, output := b.idle })) ∧
          (b.mode = .continuous → ∀ st rest, (s.prog b.program).steps = st :: rest →
            Executed .enable s r .ok [2]
              ((popRequest s).setChan c
                (runsStep b.idle (startedAt none (s.prog b.program).loopCount (chanNow s c)) 0 st
                  (chanNow s c) { s.chan c with state := .running }))))

/-- STOP: a RUNNING channel drains, a READY channel goes to OFF with its queue flushed as STOPPING,
an OFF or DRAINING channel is left as it is, and a FORCED channel refuses (R25, R26, R66). -/
def Obligations.StopDrainsOrFlushes : Prop :=
  ∀ (s : State) (r : Request) (x : Byte), Serves s r → r.kind = 0x22 →
    s.session.state = .opened → r.payload = [x] →
    (8 ≤ x.toNat → Executed .stop s r .badValue [0] (popRequest s)) ∧
    ∀ c, NamesChannel x c →
      ((s.chan c).state = .forced → Executed .stop s r .cutoffActive [4] (popRequest s)) ∧
      ((s.chan c).state = .off → Executed .stop s r .ok [0] (popRequest s)) ∧
      ((s.chan c).state = .draining → Executed .stop s r .ok [3] (popRequest s)) ∧
      ((s.chan c).state = .running →
        Executed .stop s r .ok [3]
          ((popRequest s).setChan c { s.chan c with state := .draining })) ∧
      ((s.chan c).state = .ready →
        Executed .stop s r .ok [0]
          { (popRequest s).setChan c
              { s.chan c with
                state := .off, queue := [],
                missed := (s.chan c).missed + BitVec.ofNat 16 (s.chan c).queue.length } with
            session := submitAll (flushReports c (s.chan c) .stopping) s.session })

/-- HALT of a channel in service ends its firing with ABORTED_HALT or its pass with nothing, flushes
its queue as HALTED, discards its pending binding and takes it to OFF at the idle level; an OFF
channel is left as it is, and a FORCED channel refuses (R27, R42, R45, R66, R81). -/
def Obligations.HaltEndsAllWork : Prop :=
  ∀ (s : State) (r : Request) (x : Byte), Serves s r → r.kind = 0x23 →
    s.session.state = .opened → r.payload = [x] →
    (8 ≤ x.toNat → Executed .halt s r .badValue [0] (popRequest s)) ∧
    ∀ c, NamesChannel x c →
      ((s.chan c).state = .forced → Executed .halt s r .cutoffActive [4] (popRequest s)) ∧
      ((s.chan c).state = .off → Executed .halt s r .ok [0] (popRequest s)) ∧
      ((s.chan c).haltable = true →
        Executed .halt s r .ok [0]
          { (releaseUse (popRequest s) (s.chan c).pending).setChan c
              ((s.chan c).stopped .off (s.chan c).idleLevel) with
            session :=
              submitAll (endReports c (s.chan c) (chanNow s c) .abortedHalt ++
                flushReports c (s.chan c) .halted) s.session })

/-- FIRE on a channel that takes triggers creates an entry due at the explicit point, or at now plus
the delay, behind every entry due no later. At the head with its due point reached it is handled in
the same event: it starts on a READY channel, with lateness now minus its due point, and while a
firing is in progress DEFER holds it and DROP discards it as BUSY. FIRE is refused, changing nothing,
with BAD_VALUE for a channel above 7, then in the order CUTOFF_ACTIVE, STATE, the presence code and
the range of the due point, NO_SPACE (R23, R30, R50, R51, R56 to R61). Several reports of the event
stand in the queue before the arbiter chooses (R152; log 7). -/
def Obligations.FireCreatesAnEntry : Prop :=
  ∀ (s : State) (r : Request), Serves s r → r.kind = 0x24 → s.session.state = .opened →
    (∀ x rest, r.payload = x :: rest → rest.length = 7 → 8 ≤ x.toNat →
      Executed .fire s r .badValue (zeros 7) (popRequest s)) ∧
    ∀ (c : Fin 8) (tag : Half) (presence : Byte) (due : Word),
    r.payload = [byteOf c.val] ++ le16 tag ++ [presence] ++ le32 due →
    ∀ refused, refused = zeros 6 ++ [byteOf (s.chan c).queue.length] →
    ((s.chan c).state = .forced →
      Executed .fire s r .cutoffActive refused (popRequest s)) ∧
    ((s.chan c).state = .off ∨ (s.chan c).state = .draining →
      Executed .fire s r .state refused (popRequest s)) ∧
    ∀ b, (s.chan c).active = some b →
      ((s.chan c).state = .running → b.mode = .continuous →
        Executed .fire s r .state refused (popRequest s)) ∧
      ((s.chan c).state = .ready ∨ ((s.chan c).state = .running ∧ b.mode = .triggered) →
        (2 ≤ presence.toNat → Executed .fire s r .badValue refused (popRequest s)) ∧
        (presence = 1 → atOrAfter due (chanNow s c) = false →
          Executed .fire s r .past refused (popRequest s)) ∧
        (presence = 1 → atOrAfter due (chanNow s c) = true →
          1073741824 < (due - chanNow s c).toNat →
          Executed .fire s r .badValue refused (popRequest s)) ∧
        ∀ d,
          ((presence = 0 ∧ d = chanNow s c + b.delay.setWidth 32) ∨
            (presence = 1 ∧ d = due ∧ (due - chanNow s c).toNat ≤ 1073741824)) →
          (16 ≤ (s.chan c).queue.length →
            Executed .fire s r .noSpace refused (popRequest s)) ∧
          ((s.chan c).queue.length < 16 → ∃ t,
            EntryCreated (popRequest s) c b
              { number := (s.chan c).nextNumber, source := .host tag, trigger := chanNow s c
                due := d } t ∧
            Executed .fire s r .ok
              (le16 (s.chan c).nextNumber ++ le32 d ++ [byteOf (t.chan c).queue.length]) t))

/-- ENABLE, STOP, HALT, BIND, with a program and with program id 0, and FIRE of a FORCED member are
refused with CUTOFF_ACTIVE while the latch is TRIPPED, and SET_CHANNEL_OPTIONS with CUTOFF_ACTIVE or
STATE; nothing changes but the request queue (R73, R134). -/
def Obligations.ForcedChannelRefuses : Prop :=
  ∀ (s : State) (r : Request) (c : Fin 8), Serves s r → s.session.state = .opened →
    (s.chan c).state = .forced →
    ((s.chan c).member = true → s.cutoff.latch = .tripped → r.payload = [byteOf c.val] →
      r.kind = 0x21 → Executed .enable s r .cutoffActive [4] (popRequest s)) ∧
    (r.payload = [byteOf c.val] → r.kind = 0x22 →
      Executed .stop s r .cutoffActive [4] (popRequest s)) ∧
    (r.payload = [byteOf c.val] → r.kind = 0x23 →
      Executed .halt s r .cutoffActive [4] (popRequest s)) ∧
    (r.kind = 0x20 → ∀ b : Binding, r.payload = byteOf c.val :: b.bytes →
      (s.prog b.program).state = .sealed →
      ¬ (b.mode = .triggered ∧ (s.prog b.program).loopCount = 0) →
      Executed .bind s r .cutoffActive
        [4, bindingProgram (s.chan c).active, bindingProgram (s.chan c).pending]
        (popRequest s)) ∧
    (r.kind = 0x20 → ∀ rest, r.payload = byteOf c.val :: 0 :: rest → rest.length = 11 →
      Executed .bind s r .cutoffActive
        [4, bindingProgram (s.chan c).active, bindingProgram (s.chan c).pending]
        (popRequest s)) ∧
    (r.kind = 0x24 → ∀ rest, r.payload = byteOf c.val :: rest → rest.length = 7 →
      Executed .fire s r .cutoffActive (zeros 6 ++ [byteOf (s.chan c).queue.length])
        (popRequest s)) ∧
    (r.kind = 0x0A → ∀ (member : Bool) (safe : Level),
      r.payload = [byteOf c.val, boolCode member, levelCode safe] →
      Executed .setChannelOptions s r
        (if member = true ∧ s.cutoff.latch = .tripped then .cutoffActive else .state)
        [4, boolCode (s.chan c).member, levelCode (s.chan c).safeLevel] (popRequest s))

/-! ## Line, capture, cutoff and session requests -/

/-- TIMEBASE_CONFIG sets filter and stall limit together, then the filter acts on the candidate and
the limit on the line state. A candidate the new filter does not complete waits, a falling one it
completes moves the accepted level; limit 0 takes a STALLED line to MOVING, and a limit already
passed declares the stall at once. A rising candidate it completes is counted like any other edge
and leaves the line MOVING; where the limit would also move the line state, either may act first,
and with it LINE_RESUMED, or the stall, comes or does not. Out of range it changes nothing (R90, R91,
R93 to R96). The order of R95 and R96 is left to a free value (log 9). -/
def Obligations.TimebaseConfigActs : Prop :=
  ∀ (s : State) (r : Request) (f : Byte) (limit : Half), Serves s r → r.kind = 0x28 →
    s.session.state = .opened → r.payload = f :: le16 limit →
    ((15 < f.toNat ∨ 60000 < limit.toNat) →
      Executed .timebaseConfig s r .badValue
        ([byteOf s.line.filter.toNat] ++ le16 s.line.stallLimit ++ [s.line.lineState.code])
        (popRequest s)) ∧
    (f.toNat ≤ 15 → limit.toNat ≤ 60000 →
      ∀ (s1 : State) (reached : Prop) (stall : LineUnit → LineUnit)
        (noticed : Vector Channel 8) (stalled : Session),
      s1 = { popRequest s with line := { s.line with filter := f.setWidth 4,
                                                     stallLimit := limit } } →
      reached = (s.line.lineState = .moving ∧ limit ≠ 0 ∧
        ∃ q, s.line.quiet = some q ∧ limit.toNat * 1000 ≤ q) →
      stall = (fun l => { l with lineState := .stalled, period := some 0, freshEdges := 0 }) →
      noticed = (s.channels.map fun ch =>
        if ch.lineBound then { ch with stallNotices := ch.stallNotices + 1 } else ch) →
      stalled = s.session.submit (.lineStall s.line.lineBase (s.line.lastEdge.getD 0)) →
      (∀ s2, (((∀ k ∈ s.line.candidate, k.count ≤ f.toNat) ∧ s2 = s1) ∨
          ∃ n, s.line.candidate = some { level := .low, count := n } ∧ f.toNat < n ∧
            s2 = { s1 with line := { s1.line with level := .low, candidate := none } }) →
        (¬ reached → ¬ (s.line.lineState = .stalled ∧ limit = 0) →
          Executed .timebaseConfig s r .ok ([f] ++ le16 limit ++ [s.line.lineState.code]) s2) ∧
        (s.line.lineState = .stalled → limit = 0 →
          Executed .timebaseConfig s r .ok ([f] ++ le16 limit ++ [1])
            { s2 with line := { s2.line with lineState := .moving } }) ∧
        (reached →
          Executed .timebaseConfig s r .ok ([f] ++ le16 limit ++ [2])
            { s2 with line := stall s2.line, session := stalled, channels := noticed })) ∧
      (∀ n s3, s.line.candidate = some { level := .high, count := n } → f.toNat < n →
        s3 = { s1 with line := s1.line.rise s.timeBase, freeCount := s.freeCount + 1 } →
        (¬ reached → s.line.lineState ≠ .stalled →
          Executed .timebaseConfig s r .ok ([f] ++ le16 limit ++ [1]) s3) ∧
        ∀ (q : Nat) (resumed : ReportBody), s.line.quiet = some q →
          resumed = .lineResumed (BitVec.ofNat 32 (q / 1000)) →
          (s.line.lineState = .stalled → limit ≠ 0 →
            Executed .timebaseConfig s r .ok ([f] ++ le16 limit ++ [1])
              { s3 with session := s.session.submit resumed }) ∧
          (s.line.lineState = .stalled → limit = 0 → ∃ filterFirst : Bool,
            Executed .timebaseConfig s r .ok ([f] ++ le16 limit ++ [1])
              (if filterFirst then { s3 with session := s.session.submit resumed } else s3)) ∧
          (reached → ∃ filterFirst : Bool,
            Executed .timebaseConfig s r .ok ([f] ++ le16 limit ++ [1])
              (if filterFirst then s3
               else { s3 with line := (stall s1.line).rise s.timeBase
                              session := stalled.submit resumed, channels := noticed }))))

/-- SET_LINE sets the line base to the carried value, raises presets made by 1 and hands the offset,
new value less old, to every LINE-bound channel and to no other; the reply tells the old value
and the offset (R97, R98). The sum of the offsets kept beside the count is the model's form (log
6). -/
def Obligations.SetLinePresetsLineBase : Prop :=
  ∀ (s : State) (r : Request), Serves s r → r.kind = 0x29 →
    (r.payload.length ≠ 4 → Executed .setLine s r .badLength (zeros 8) (popRequest s)) ∧
    (r.payload.length = 4 → s.session.state = .closed →
      Executed .setLine s r .noSession (zeros 8) (popRequest s)) ∧
    (s.session.state = .opened → ∀ v, r.payload = le32 v → ∀ k, k = v - s.line.lineBase →
      Executed .setLine s r .ok (le32 s.line.lineBase ++ le32 k)
        { popRequest s with
          line := { s.line with lineBase := v, presetsMade := s.line.presetsMade + 1,
                                offsetSum := s.line.offsetSum + k }
          channels := s.channels.map fun ch =>
            if ch.lineBound then { ch with presets := ch.presets ++ [k] } else ch })

/-- A channel takes the oldest preset handed to it: a LINE-bound channel moves the trigger and due
point of every entry and all the points of its firing in progress by the offset, so that every
due point and step end stays as far from its now (R68, R69). That a channel no longer LINE-bound
takes the preset too, moving nothing but its count and its sum, is the model's (log 27). The queue of
presets not yet taken is log 5, and their sum log 6. -/
def Obligations.PresetMovesPointsWithTheLine : Prop :=
  ∀ (s : State) (c : Fin 8) (k : Word) (rest : List Word), (s.chan c).presets = k :: rest →
    ∃ t, exec (.linePresetTaken c) s = .next (s.setChan c t) ∧
      t.presets = rest ∧ t.presetsTaken = (s.chan c).presetsTaken + 1 ∧
      t.coords = (s.chan c).coords + k ∧
      ((s.chan c).lineBound = false → t.queue = (s.chan c).queue ∧ t.firing = (s.chan c).firing) ∧
      ((s.chan c).lineBound = true →
        t.queue = ((s.chan c).queue.map fun x =>
          { x with trigger := x.trigger + k, due := x.due + k }) ∧
        t.firing = ((s.chan c).firing.map fun f =>
          { f with entry := f.entry.map fun x =>
                     { x with trigger := x.trigger + k, due := x.due + k }
                   start := f.start + k, stepStart := f.stepStart + k,
                   stepEnd := f.stepEnd + k }) ∧
        (PresetLaw s → rest.length + 1 < 65536 →
          chanNow (s.setChan c t) c = chanNow s c + k ∧
          (rest = [] → chanNow (s.setChan c t) c = s.line.lineBase))) ∧
      t.state = (s.chan c).state ∧ t.output = (s.chan c).output ∧
      t.active = (s.chan c).active ∧ t.pending = (s.chan c).pending ∧
      t.member = (s.chan c).member ∧ t.safeLevel = (s.chan c).safeLevel ∧
      t.accepted = (s.chan c).accepted ∧ t.completed = (s.chan c).completed ∧
      t.aborted = (s.chan c).aborted ∧ t.missed = (s.chan c).missed ∧
      t.nextNumber = (s.chan c).nextNumber ∧ t.triggers = (s.chan c).triggers ∧
      t.offers = (s.chan c).offers ∧ t.stallNotices = (s.chan c).stallNotices

/-- CAPTURE_CONFIG sets the three fields of an input and re-primes its measurement; from OFF the
pin's level is taken, to OFF the acceptance state goes, and otherwise level and candidate are kept
and the candidate is accepted at once when its count suffices (R103, R106, R111). -/
def Obligations.CaptureConfigSetsAnInput : Prop :=
  ∀ (s : State) (r : Request) (x m l f : Byte), Serves s r → r.kind = 0x30 →
    s.session.state = .opened → r.payload = [x, m, l, f] →
    (3 < x.toNat → Executed .captureConfig s r .badValue [0, 0, 0] (popRequest s)) ∧
    ∀ i : Fin 4, x.toNat = i.val →
      ((5 < m.toNat ∨ 3 < l.toNat ∨ 15 < f.toNat) →
        Executed .captureConfig s r .badValue
          [(s.input i).mode.code, (s.input i).logEdges.code, byteOf (s.input i).filter.toNat]
          (popRequest s)) ∧
      ∀ (mode : CapMode) (logEdges : LogEdges), m = mode.code → l = logEdges.code →
        f.toNat ≤ 15 →
        ∀ s1, s1 = (popRequest s).setInput i
            { mode := mode, logEdges := logEdges, filter := f.setWidth 4, measure := none
              level := if mode = .off then none
                       else if (s.input i).mode = .off then some s.pins.cap[i]
                       else (s.input i).level
              candidate := if mode = .off ∨ (s.input i).mode = .off then none
                           else (s.input i).candidate } →
          ((mode = .off ∨ (s.input i).mode = .off ∨
              (∀ k ∈ (s.input i).candidate, k.count ≤ f.toNat)) →
            Executed .captureConfig s r .ok [m, l, f] s1) ∧
          (mode ≠ .off → (s.input i).mode ≠ .off → ∀ k, (s.input i).candidate = some k →
            f.toNat < k.count →
            Executed .captureConfig s r .ok [m, l, f] (acceptEdge s1 i k.level))

/-- ROUTE_ADD places a new route at the lowest free id, tells the id of an equal route as DUPLICATE
and NO_SPACE when no id is free; ROUTE_REMOVE frees an id and touches nothing that the route has
already done (R113, R114, R115). -/
def Obligations.RoutesAreAddedAndRemoved : Prop :=
  ∀ (s : State) (r : Request), Serves s r → s.session.state = .opened →
    ∀ n, n = (allRoutes.filter fun id => (s.route id).isSome).length →
    (r.kind = 0x31 → ∀ x e ch, r.payload = [x, e, ch] →
      ((3 < x.toNat ∨ 2 < e.toNat ∨ 7 < ch.toNat) →
        Executed .routeAdd s r .badValue [0xFF, byteOf n] (popRequest s)) ∧
      ∀ w : Route, x.toNat = w.input.val → e = w.edge.code → ch.toNat = w.channel.val →
        (∀ id, s.route id = some w → (∀ j < id, s.route j ≠ some w) →
          Executed .routeAdd s r .duplicate [byteOf id.val, byteOf n] (popRequest s)) ∧
        ((∀ id, s.route id ≠ some w) →
          ((∀ id, s.route id ≠ none) →
            Executed .routeAdd s r .noSpace [0xFF, byteOf n] (popRequest s)) ∧
          (∀ id, s.route id = none → (∀ j < id, s.route j ≠ none) →
            Executed .routeAdd s r .ok [byteOf id.val, byteOf (n + 1)]
              ((popRequest s).setRoute id (some w))))) ∧
    (r.kind = 0x32 → ∀ x, r.payload = [x] →
      (15 < x.toNat → Executed .routeRemove s r .badValue [byteOf n] (popRequest s)) ∧
      ∀ id : Fin 16, x.toNat = id.val →
        (s.route id = none → Executed .routeRemove s r .notFound [byteOf n] (popRequest s)) ∧
        (s.route id ≠ none →
          Executed .routeRemove s r .ok [byteOf (n - 1)] ((popRequest s).setRoute id none)))

/-- READ_CAPTURES removes and returns the oldest entries, as many as asked for and there are, and a
drop count above 0 becomes a GAP entry at the tail in the same event; it is refused while streaming
is on (R119, R121, R123). -/
def Obligations.ReadCapturesDrainsTheLog : Prop :=
  ∀ (s : State) (r : Request) (m : Byte), Serves s r → r.kind = 0x34 →
    s.session.state = .opened → r.payload = [m] →
    ((m = 0 ∨ 16 < m.toNat) →
      Executed .readCaptures s r .badValue (zeros 4) (popRequest s)) ∧
    (1 ≤ m.toNat → m.toNat ≤ 16 →
      (s.capture.streaming = true →
        Executed .readCaptures s r .streaming
          ([0, byteOf s.capture.log.length] ++ le16 s.capture.dropCount) (popRequest s)) ∧
      (s.capture.streaming = false →
        (s.capture.dropCount = 0 →
          Executed .readCaptures s r .ok
            ([byteOf (min m.toNat s.capture.log.length),
              byteOf (s.capture.log.length - m.toNat)] ++ le16 0 ++
              (s.capture.log.take m.toNat).flatMap CapEntry.bytes)
            { popRequest s with
              capture := { s.capture with log := s.capture.log.drop m.toNat } }) ∧
        (s.capture.dropCount ≠ 0 →
          Executed .readCaptures s r .ok
            ([byteOf (min m.toNat s.capture.log.length),
              byteOf (s.capture.log.length - m.toNat + 1)] ++ le16 0 ++
              (s.capture.log.take m.toNat).flatMap CapEntry.bytes)
            { popRequest s with
              capture :=
                { s.capture with
                  log := s.capture.log.drop m.toNat ++
                    [{ number := s.capture.nextNumber
                       input := s.capture.lastDropped.getD 0, kind := .gap, time := s.timeBase
                       line := s.line.lineBase, value := s.capture.dropCount.setWidth 24
                       saturated := false }]
                  nextNumber := s.capture.nextNumber + 1
                  dropCount := 0
                  lastDropped := none } })))

/-- CAPTURE_STREAM turns the moves off, leaves a setting that is already so, and on turning on moves
the oldest entries into the report queue at once, in order and with consecutive sequences, until two
free slots are left: REPORTS_LOST goes ahead when lost counts are waiting, and a drop count above 0
becomes a GAP entry behind the log once an entry has left it (R121, R124, R125, R165, R167). The
fields under BAD_VALUE are the model's (log 31). -/
def Obligations.CaptureStreamMovesAtOnce : Prop :=
  ∀ (s : State) (r : Request) (m : Byte), Serves s r → r.kind = 0x35 →
    s.session.state = .opened → r.payload = [m] →
    (1 < m.toNat → Executed .captureStream s r .badValue [0, 0] (popRequest s)) ∧
    (m = 0 →
      Executed .captureStream s r .ok [0, byteOf s.capture.log.length]
        { popRequest s with capture := { s.capture with streaming := false } }) ∧
    (m = 1 → s.capture.streaming = true →
      Executed .captureStream s r .ok [1, byteOf s.capture.log.length] (popRequest s)) ∧
    (m = 1 → s.capture.streaming = false → ∃ cap1 se1,
      MovesTo s.timeBase s.line.lineBase { s.capture with streaming := true } s.session
        cap1 se1 ∧
      Executed .captureStream s r .ok [1, byteOf cap1.log.length]
        { popRequest s with capture := cap1, session := se1 })

/-- CUTOFF trips the latch with cause REQUEST in every session state; an accepted assertion of
CUTOFF_N trips it with PIN, and a deassertion moves the accepted level and nothing else (R128,
R129). -/
def Obligations.CutoffIsTrippedByRequestAndPin : Prop :=
  ∀ s : State,
    (∀ r, Serves s r → r.kind = 0x08 → r.payload = [] →
      ∀ t, t = trip (popRequest s) .request →
        t.cutoff.latch = .tripped ∧ t.cutoff.causes.request = true ∧
        Executed .cutoff s r .ok
          [1, bitSet [t.cutoff.causes.pin, t.cutoff.causes.request, t.cutoff.causes.silence],
           forcedSet t] t) ∧
    (∀ n, s.cutoff.candidate = some { level := .low, count := n } → 5 ≤ n →
      exec .cutoffNAssertion s =
        .next (arbitrate
          (trip { s with cutoff := { s.cutoff with level := .low, candidate := none } } .pin))) ∧
    (∀ n, s.cutoff.candidate = some { level := .high, count := n } → 5 ≤ n →
      exec .cutoffNDeassertion s =
        .next { s with cutoff := { s.cutoff with level := .high, candidate := none } })

/-- A trip from CLEAR sets the latch and its one cause, reports the members, and then forces each
member, whatever its state, in channel order: its firing aborted, its queue flushed as CUTOFF, its
pending binding discarded, its output at the safe level; other channels are not touched. A trip
while TRIPPED adds its cause and reports once, or changes nothing when the set has it (R127, R131,
R132, R135, R138). -/
def Obligations.TripForcesEveryMember : Prop :=
  ∀ (s : State) (cause : CutoffCause),
    (s.cutoff.latch = .clear → ∀ causes,
      causes = { pin := cause == .pin, request := cause == .request,
                 silence := cause == .silence } →
      trip s cause =
        { s with
          cutoff := { s.cutoff with latch := .tripped, causes := causes }
          channels := Vector.ofFn fun c =>
            if (s.chan c).member then (s.chan c).stopped .forced (s.chan c).safeLevel
            else s.chan c
          store := (((allChannels.filter fun c => (s.chan c).member).foldl
            (fun u c => releaseUse u (s.chan c).pending) s)).store
          session :=
            submitAll
              (.cutoffTripped causes (chanSet fun c => (s.chan c).member) ::
                (allChannels.filter fun c => (s.chan c).member).flatMap fun c =>
                  endReports c (s.chan c) (chanNow s c) .abortedCutoff ++
                    flushReports c (s.chan c) .cutoff)
              s.session }) ∧
    (s.cutoff.latch = .tripped →
      (s.cutoff.causes.has cause = true → trip s cause = s) ∧
      (s.cutoff.causes.has cause = false → ∀ causes,
        causes = { pin := s.cutoff.causes.pin || cause == .pin
                   request := s.cutoff.causes.request || cause == .request
                   silence := s.cutoff.causes.silence || cause == .silence } →
        trip s cause =
          { s with
            cutoff := { s.cutoff with causes := causes }
            session := s.session.submit (.cutoffTripped causes (forcedSet s)) }))

/-- CUTOFF_RELEASE is refused while CUTOFF_N is asserted; otherwise it empties the cause set, clears
the latch and takes every FORCED channel to OFF at the idle level of its binding, or LOW without
one, with CUTOFF_RELEASED; on a CLEAR latch it changes nothing (R136, R138). -/
def Obligations.ReleaseReturnsForcedChannelsToOff : Prop :=
  ∀ (s : State) (r : Request), Serves s r → r.kind = 0x09 → s.session.state = .opened →
    r.payload = [] →
    (s.cutoff.level = .low →
      Executed .cutoffRelease s r .cutoffActive
        [s.cutoff.latch.code, s.cutoff.causes.code, forcedSet s] (popRequest s)) ∧
    (s.cutoff.level = .high →
      (s.cutoff.latch = .clear →
        Executed .cutoffRelease s r .ok [0, s.cutoff.causes.code, forcedSet s]
          (popRequest s)) ∧
      (s.cutoff.latch = .tripped →
        Executed .cutoffRelease s r .ok [0, 0, 0]
          { popRequest s with
            cutoff := { s.cutoff with latch := .clear,
                                      causes := { pin := false, request := false,
                                                  silence := false } }
            channels := s.channels.map fun ch =>
              if ch.state = .forced then
                { ch with state := .off, output := match ch.active with
                                                   | some b => b.idle
                                                   | none => .low }
              else ch
            session := s.session.submit (.cutoffReleased (forcedSet s)) }))

/-- SET_CHANNEL_OPTIONS sets both options of an OFF channel, whose output does not move; membership
is refused while the latch is TRIPPED, then any channel that is not OFF (R137). -/
def Obligations.OptionsAreSetInOff : Prop :=
  ∀ (s : State) (r : Request) (x m l : Byte), Serves s r → r.kind = 0x0A →
    s.session.state = .opened → r.payload = [x, m, l] →
    (7 < x.toNat → Executed .setChannelOptions s r .badValue [0, 0, 0] (popRequest s)) ∧
    ∀ c, NamesChannel x c →
      ((1 < m.toNat ∨ 1 < l.toNat) →
        Executed .setChannelOptions s r .badValue
          [(s.chan c).state.code, boolCode (s.chan c).member, levelCode (s.chan c).safeLevel]
          (popRequest s)) ∧
      ∀ (member : Bool) (safe : Level), m = boolCode member → l = levelCode safe →
        (member = true → s.cutoff.latch = .tripped →
          Executed .setChannelOptions s r .cutoffActive
            [(s.chan c).state.code, boolCode (s.chan c).member, levelCode (s.chan c).safeLevel]
            (popRequest s)) ∧
        (¬ (member = true ∧ s.cutoff.latch = .tripped) →
          ((s.chan c).state ≠ .off →
            Executed .setChannelOptions s r .state
              [(s.chan c).state.code, boolCode (s.chan c).member,
               levelCode (s.chan c).safeLevel] (popRequest s)) ∧
          ((s.chan c).state = .off →
            Executed .setChannelOptions s r .ok [0, m, l]
              ((popRequest s).setChan c { s.chan c with member := member, safeLevel := safe })))

/-- OPEN_SESSION closes an OPEN session with cause REOPEN, without halting a channel, and starts the
next session with its own settings, an empty queue, sequence 1 and lost counts of 0; out of range it
changes nothing (R158, R159, R160). -/
def Obligations.OpenSessionStartsTheNext : Prop :=
  ∀ (s : State) (r : Request) (silence resend : Half) (m : Byte), Serves s r → r.kind = 0x03 →
    r.payload = le16 silence ++ le16 resend ++ [m] →
    ((¬ (silence = 0 ∨ (50 ≤ silence.toNat ∧ silence.toNat ≤ 60000)) ∨
        ¬ (resend = 0 ∨ (10 ≤ resend.toNat ∧ resend.toNat ≤ 5000)) ∨ 32 ≤ m.toNat) →
      Executed .openSession s r .badValue [0, 0] (popRequest s)) ∧
    ((silence = 0 ∨ (50 ≤ silence.toNat ∧ silence.toNat ≤ 60000)) →
      (resend = 0 ∨ (10 ≤ resend.toNat ∧ resend.toNat ≤ 5000)) → m.toNat < 32 →
      ∀ number, number = (if s.session.number = 255 then 1 else s.session.number + 1) →
      ∃ t,
        Executed .openSession s r .ok
          [number, if s.session.state = .opened then s.session.number else 0] t ∧
        t.session =
          { state := .opened, number := number
            lastClose := if s.session.state = .opened then .reopen else s.session.lastClose
            silenceTimeout := some silence, resendTime := some resend
            mask := some { firing := m.getLsbD 0, missed := m.getLsbD 1, step := m.getLsbD 2,
                           channel := m.getLsbD 3, line := m.getLsbD 4 }
            silenceTimer := if silence = 0 then none
                            else some (s.timeBase + BitVec.ofNat 32 (silence.toNat * 1000))
            resendTimer := none, reports := [], nextSequence := 1, lost := LostCounts.zero } ∧
        t.link = { (popRequest s).link with cache := [] } ∧
        t.channels = s.channels ∧ t.line = s.line ∧ t.cutoff = s.cutoff ∧
        t.timeBase = s.timeBase ∧ t.pins = s.pins ∧ t.pending = s.pending ∧
        (s.session.state = .opened →
          t.capture = { s.capture with streaming := false } ∧ OpenDiscarded s t) ∧
        (s.session.state = .closed → t.capture = s.capture ∧ t.store = s.store))

/-- CLOSE_SESSION closes the session with cause REQUEST and discards the OPEN program; with quiesce it
first halts every channel in service, and the use counts of their discarded pending bindings fall;
without it every channel goes on (R14, R16, R27, R81, R159, R161). -/
def Obligations.CloseSessionEndsTheSession : Prop :=
  ∀ (s : State) (r : Request) (q : Byte), Serves s r → r.kind = 0x04 →
    s.session.state = .opened → r.payload = [q] →
    (1 < q.toNat → Executed .closeSession s r .badValue [0, 0] (popRequest s)) ∧
    ∀ quiesce : Bool, q = (if quiesce then 1 else 0) →
      ∃ t,
        Executed .closeSession s r .ok
          [s.session.number,
           if quiesce then chanSet fun c => (s.chan c).haltable else 0] t ∧
        t.session = { s.session.closed .request with nextSequence := t.session.nextSequence } ∧
        t.link = { (popRequest s).link with cache := [] } ∧
        t.capture = { s.capture with streaming := false } ∧
        t.line = s.line ∧ t.cutoff = s.cutoff ∧ t.timeBase = s.timeBase ∧ t.pins = s.pins ∧
        t.pending = s.pending ∧
        (quiesce = false → t.session.nextSequence = s.session.nextSequence ∧
          t.channels = s.channels ∧ OpenDiscarded s t) ∧
        (quiesce = true → ∀ halted, halted = (allChannels.filter fun c => (s.chan c).haltable) →
          OpenDiscarded
            (halted.foldl (fun u c => releaseUse u (s.chan c).pending) (popRequest s)) t ∧
          t.session.nextSequence =
            (submitAll
              (halted.flatMap fun c =>
                endReports c (s.chan c) (chanNow s c) .abortedHalt ++
                  flushReports c (s.chan c) .halted) s.session).nextSequence ∧
          ∀ c, t.chan c =
            if (s.chan c).haltable then (s.chan c).stopped .off (s.chan c).idleLevel
            else s.chan c)

/-- ACK_REPORTS removes the report it names and every report ahead of it, restarts the resend timer
when a SENT report remains and stops it when none does, then makes the REPORTS_LOST check and tries
capture moves; a sequence that names no report, or a NEW one, changes nothing (R167, R169, R170). -/
def Obligations.AckRemovesAHeadRun : Prop :=
  ∀ (s : State) (r : Request) (n : Half), Serves s r → r.kind = 0x05 →
    s.session.state = .opened → r.payload = le16 n →
    ((∀ x ∈ s.session.reports, x.sequence = n → x.state = .new) →
      (s.session.reports.map Report.sequence).Nodup →
      Executed .ackReports s r .badValue
        [0, byteOf s.session.reports.length, byteOf s.session.unacknowledged] (popRequest s)) ∧
    ∀ before x after, s.session.reports = before ++ x :: after → x.sequence = n →
      x.state ≠ .new → (∀ y ∈ before, y.sequence ≠ n) →
      ∀ se, se = { s.session with
          reports := after
          resendTimer :=
            if ∃ y ∈ after, y.state = .sent then
              (match s.session.resendTime with
               | some w =>
                 if w = 0 then none
                 else some (s.timeBase + BitVec.ofNat 32 (w.toNat * 1000))
               | none => none)
            else none } →
        (∀ t, t = tryMoves { popRequest s with session := se.lossCheck } →
          Executed .ackReports s r .ok
            [byteOf (before.length + 1), byteOf t.session.reports.length,
             byteOf t.session.unacknowledged] t) ∧
        (s.session.lost = LostCounts.zero → s.capture.streaming = false →
          Executed .ackReports s r .ok
            [byteOf (before.length + 1), byteOf after.length, byteOf se.unacknowledged]
            { popRequest s with session := se })

/-- RESTART is answered first and sets restart pending; when its reply, the last of the queue, has
been sent, the soft reset closes the session with cause RESTART, empties the link but its rate
and counters, keeps the SEALED programs unbound, re-initialises the channels, the line fields
but the line base, and the capture unit, frees the slots of an OPEN program, and forces every channel
when the latch is TRIPPED (R17, R48, R98, R102, R126, R128, R139, R156, R157, R158). How the end of
its reply is known is log 21, and that offered edges and stall notices not yet taken are dropped log
29. -/
def Obligations.RestartActsAfterItsReply : Prop :=
  (∀ (s : State) (r : Request), Serves s r → r.kind = 0x06 → r.payload = [] →
    Executed .restart s r .ok []
      { popRequest s with link := { (popRequest s).link with restartPending := true } }) ∧
  ∀ (s : State) (f : Frame) (left : Int), s.link.transmitter = .sending f left → left ≤ 0 →
    s.link.restartPending = true → s.link.replyQueue = [] →
    ∃ t, exec .transmissionEnd s = .next t ∧
      t.session =
        (if s.session.state = .opened then s.session.closed .restart else s.session) ∧
      t.link =
        { s.link with requestQueue := [], replyQueue := [], cache := [], framer := .hunt,
                      transmitter := .idle, restartPending := false } ∧
      t.line =
        { s.line with lineState := .waiting, filter := 0, stallLimit := 0, candidate := none,
                      lastEdge := none, period := none, freshEdges := 0, quiet := none } ∧
      (∀ i, t.input i = { mode := .off, logEdges := .both, filter := 0, level := none,
                          candidate := none, measure := none }) ∧
      (∀ id, t.route id = none) ∧ t.capture.log = [] ∧ t.capture.nextNumber = 0 ∧
      t.capture.dropCount = 0 ∧ t.capture.lastDropped = none ∧ t.capture.streaming = false ∧
      t.cutoff = { s.cutoff with candidate := none } ∧
      (∀ c, t.chan c = { Channel.init with
        state := if s.cutoff.latch = .tripped then .forced else .off }) ∧
      (∀ q, ((s.prog q).state = .opened → t.prog q = Program.none) ∧
        ((s.prog q).state ≠ .opened →
          (t.prog q).state = (s.prog q).state ∧ (t.prog q).steps = (s.prog q).steps ∧
          (t.prog q).loopStart = (s.prog q).loopStart ∧
          (t.prog q).loopCount = (s.prog q).loopCount ∧
          (UseLaw s → (t.prog q).useCount = 0))) ∧
      t.store.freeSlots = s.store.freeSlots +
        ((allPrograms.filter fun q => (s.prog q).state == .opened).map fun q =>
          (s.prog q).steps.length).sum ∧
      t.timeBase = s.timeBase ∧ t.startUp = s.startUp ∧ t.pins = s.pins ∧
      t.pending = s.pending

/-! ## The link -/

/-- The receive framer by its table: hunting, LEN, body and CRC bytes; the partial frame of an
invalid LEN byte is discarded and counted. And a gap of more than 2,000 microseconds after a
kept byte discards the partial frame and counts it, a shorter one does nothing. During start-up, and
until a whole character has passed since its end, no character is received (R140, R142, R143, R153,
R155). The exact tick of the gap is log 15, the byte rows the table names apart log 20, and the tick
from which a character is received log 32. -/
def Obligations.FramerFollowsItsTable : Prop :=
  ∀ (s : State) (b : Byte),
    ((s.startUp = true ∨ s.link.listened < 10000000) →
      ∀ i, (i = .receivedByte b ∨ i = .frameComplete b ∨ i = .invalidLenByte b) →
        exec i s = .next s) ∧
    (s.startUp = false → 10000000 ≤ s.link.listened →
    (s.link.framer = .hunt →
      exec (.receivedByte b) s =
        .next (if b = 0xA5 then
          { s with link := { s.link with framer := .length s.timeBase } } else s)) ∧
    (∀ p, s.link.framer = .length p →
      (2 ≤ b.toNat → b.toNat ≤ 242 →
        exec (.receivedByte b) s =
          .next { s with link := { s.link with framer := .body b [] s.timeBase } }) ∧
      ((b.toNat < 2 ∨ 242 < b.toNat) →
        ∀ i, (i = .receivedByte b ∨ i = .invalidLenByte b) →
        exec i s =
          .next { s with link := { s.link with
                    framer := .hunt
                    frameErrors := if s.link.frameErrors = 65535 then 65535
                                   else s.link.frameErrors + 1 } })) ∧
    (∀ len kept p, s.link.framer = .body len kept p →
      exec (.receivedByte b) s =
        .next { s with link := { s.link with
                  framer := if kept.length + 1 < len.toNat then
                              .body len (kept ++ [b]) s.timeBase
                            else .check len (kept ++ [b]) none s.timeBase } }) ∧
    (∀ len kept p, s.link.framer = .check len kept none p →
      exec (.receivedByte b) s =
        .next { s with link := { s.link with framer := .check len kept (some b) s.timeBase } }) ∧
    (∀ len kept low p, s.link.framer = .check len kept (some low) p →
      exec (.receivedByte b) s = exec (.frameComplete b) s ∧
      ∃ t, exec (.receivedByte b) s = .next t ∧ t.link.framer = .hunt)) ∧
    (∀ p, (s.link.framer = .length p ∨ (∃ len kept, s.link.framer = .body len kept p) ∨
        ∃ len kept low, s.link.framer = .check len kept low p) →
      exec .interByteGapTimeout s =
        .next (if 2000 < (s.timeBase - p).toNat then
          { s with link := { s.link with
              framer := .hunt
              frameErrors := if s.link.frameErrors = 65535 then 65535
                             else s.link.frameErrors + 1 } } else s))

/-- A complete frame with a wrong CRC raises the CRC errors and has no other effect. A good frame
restarts a running silence timer; in an OPEN session one that matches a cache entry is answered with
a copy marked REPEAT, is dropped while restart is pending, or is an overrun when the reply queue is
full; one that matches a waiting request is dropped; any other enters the request queue, or is an
overrun when it is full (R144, R145, R150, R151, R153, R162). The receiver has listened for a whole
character (R155; log 32). -/
def Obligations.CompleteFrameIsJudged : Prop :=
  ∀ (s : State) (len kind tag low high : Byte) (payload : List Byte) (p : Word) (crc : Half),
    s.startUp = false → 10000000 ≤ s.link.listened → TxdLaw s →
    s.link.framer = .check len (kind :: tag :: payload) (some low) p → crc = high ++ low →
    ∀ r : Request, r = { kind := kind, tag := tag, payload := payload, crc := crc } →
    (crc16 (len :: kind :: tag :: payload) ≠ crc →
      exec (.frameComplete high) s =
        .next { s with link := { s.link with
                  framer := .hunt
                  crcErrors := if s.link.crcErrors = 65535 then 65535
                               else s.link.crcErrors + 1 } }) ∧
    (crc16 (len :: kind :: tag :: payload) = crc →
      ∀ s1, s1 = { s with
          link := { s.link with framer := .hunt }
          session :=
            { s.session with
              silenceTimer :=
                match s.session.silenceTimer, s.session.silenceTimeout with
                | some _, some t => some (s.timeBase + BitVec.ofNat 32 (t.toNat * 1000))
                | timer, _ => timer } } →
      ((s.session.state = .closed ∨
          ((∀ e ∈ s.link.cache, ¬ (e.tag = tag ∧ e.crc = crc)) ∧
            ∀ q ∈ s.link.requestQueue, ¬ (q.tag = tag ∧ q.crc = crc))) →
        exec (.frameComplete high) s =
          .next (if s.link.requestQueue.length < 4 then
            { s1 with link := { s1.link with requestQueue := s.link.requestQueue ++ [r] } }
          else
            { s1 with link := { s1.link with
                overruns := if s.link.overruns = 65535 then 65535
                            else s.link.overruns + 1 } })) ∧
      (s.session.state = .opened →
        ((∀ e ∈ s.link.cache, ¬ (e.tag = tag ∧ e.crc = crc)) →
          (∃ q ∈ s.link.requestQueue, q.tag = tag ∧ q.crc = crc) →
          exec (.frameComplete high) s = .next s1) ∧
        (∀ before e after, s.link.cache = before ++ e :: after → e.tag = tag →
          e.crc = crc → (∀ y ∈ before, ¬ (y.tag = tag ∧ y.crc = crc)) →
          ∀ result flags fields, e.reply.payload = result :: flags :: fields →
          exec (.frameComplete high) s =
            .next (if s.link.restartPending then s1
            else if s.link.replyQueue.length < 4 then
              arbitrate { s1 with link := { s1.link with
                replyQueue := s.link.replyQueue ++
                  [{ e.reply with payload := result :: (flags ||| 1) :: fields }] } }
            else
              { s1 with link := { s1.link with
                  overruns := if s.link.overruns = 65535 then 65535
                              else s.link.overruns + 1 } }))))

/-- When a frame has been sent whole and no soft reset is due, the reply at the head of the reply
queue starts; without one the eligible report starts, becomes SENT and starts the resend timer
when no other report is SENT; without one TXD is idle. While the frame still occupies TXD
nothing happens (R140, R141, R148, R152, R168, R170, R178). The time a frame occupies TXD, ten bit
times a byte less what the frame before it left of its last tick, is measured as log 16 says. -/
def Obligations.TransmissionEndStartsTheNext : Prop :=
  ∀ (s : State) (f : Frame) (left carry : Int), s.link.transmitter = .sending f left →
    carry = (if -(s.link.rate.bitsPerSecond : Int) < left then left else 0) →
    (0 < left → exec .transmissionEnd s = .next s) ∧
    (left ≤ 0 → ¬ (s.link.restartPending = true ∧ s.link.replyQueue = []) →
      (∀ g rest, s.link.replyQueue = g :: rest →
        exec .transmissionEnd s =
          .next { s with link := { s.link with
            transmitter := .sending g ((g.payload.length + 6) * 10000000 + carry)
            replyQueue := rest } }) ∧
      (s.link.replyQueue = [] →
        ((s.session.state = .closed ∨ 8 ≤ s.session.sentCount ∨
            ∀ x ∈ s.session.reports, x.state = .sent) →
          exec .transmissionEnd s =
            .next { s with link := { s.link with transmitter := .idle } }) ∧
        (∀ before x after, s.session.state = .opened → s.session.sentCount < 8 →
          s.session.reports = before ++ x :: after → (∀ y ∈ before, y.state = .sent) →
          x.state ≠ .sent → ∀ g : Frame,
          g = { kind := x.body.kind, tag := x.session,
                payload := le16 x.sequence ++ x.body.fields } →
          exec .transmissionEnd s =
            .next { s with
              link :=
                { s.link with
                  transmitter := .sending g ((g.payload.length + 6) * 10000000 + carry) }
              session :=
                { s.session with
                  reports := before ++ ({ x with state := .sent } : Report) :: after
                  resendTimer :=
                    if s.session.sentCount = 0 then
                      (match s.session.resendTime with
                       | some w =>
                         if w = 0 then none
                         else some (s.timeBase + BitVec.ofNat 32 (w.toNat * 1000))
                       | none => none)
                    else s.session.resendTimer } })))

/-- The end of start-up takes the levels of LINE and CUTOFF_N as accepted, with no candidate, and
trips the latch with PIN when CUTOFF_N is LOW; before 5 ms have passed it does not come (R86,
R101, R128, R139, R155). That 5 ms are 5,000 ticks of the time base is log 26, and the time the
receiver has listened, 0 from here on, log 32. -/
def Obligations.StartUpEndTakesThePins : Prop :=
  ∀ s : State, s.startUp = true → TxdLaw s →
    (s.timeBase.toNat < 5000 → exec .startUpEnd s = .next s) ∧
    (5000 ≤ s.timeBase.toNat →
      ∀ s1, s1 = { s with
          startUp := false
          link := { s.link with listened := 0 }
          line := { s.line with level := s.pins.line, candidate := none }
          cutoff := { s.cutoff with level := s.pins.cutoffN, candidate := none } } →
      (s.pins.cutoffN = .high → exec .startUpEnd s = .next s1) ∧
      (s.pins.cutoffN = .low → exec .startUpEnd s = .next (arbitrate (trip s1 .pin))))

/-- One tick raises the time base by 1, counts the quiet time up to its limit, samples LINE,
CUTOFF_N and every input whose mode is not OFF into its candidate, counts an open measurement up to
its limit, takes the microsecond's bits from the frame on TXD (log 16), adds them to the time the
receiver has listened (log 32), and changes nothing else; during start-up no pin is sampled (R86,
R88, R89, R104, R110, R128, R152, R155). -/
def Obligations.TickSamplesAndCounts : Prop :=
  ∀ (s : State) (pins : Pins),
    ∃ t, exec (.timeBaseTick pins) s = .next t ∧
      t = { s with timeBase := s.timeBase + 1, pins := pins, line := t.line, cutoff := t.cutoff
                   capture := t.capture
                   link := { s.link with transmitter := t.link.transmitter
                                         listened := t.link.listened } } ∧
      t.link.transmitter =
        (match s.link.transmitter with
         | .idle => .idle
         | .sending f left => .sending f (left - s.link.rate.bitsPerSecond)) ∧
      (s.startUp = true → t.link.listened = s.link.listened ∧ t.line = s.line ∧
        t.cutoff = s.cutoff ∧ t.capture = s.capture) ∧
      (s.startUp = false →
        t.link.listened = min (s.link.listened + s.link.rate.bitsPerSecond) 10000000 ∧
        t.line = { s.line with
          candidate := t.line.candidate
          quiet := s.line.quiet.map fun n => if n < 4294967295999 then n + 1
                                             else 4294967295999 } ∧
        Sampled s.line.level s.line.candidate pins.line t.line.candidate ∧
        t.cutoff = { s.cutoff with candidate := t.cutoff.candidate } ∧
        Sampled s.cutoff.level s.cutoff.candidate pins.cutoffN t.cutoff.candidate ∧
        t.capture = { s.capture with inputs := t.capture.inputs } ∧
        ∀ i, ((s.input i).level = none → t.input i = s.input i) ∧
          ∀ a, (s.input i).level = some a →
            t.input i = { s.input i with
              candidate := (t.input i).candidate
              measure := (s.input i).measure.map fun m =>
                { m with elapsed := if m.elapsed < 16777216 then m.elapsed + 1
                                    else 16777216 } } ∧
            Sampled a (s.input i).candidate pins.cap[i] (t.input i).candidate)

/-! ## The line and the capture inputs -/

/-- A LINE candidate sampled on filter + 1 ticks is accepted, an earlier one is not: a rising edge
raises the line base, times the line period once a trusted edge is known, makes the line MOVING and,
from STALLED, submits LINE_RESUMED with the stall duration; a falling one moves the accepted level
and nothing else. At the stall limit a MOVING line becomes STALLED, with period 0, LINE_STALL and a
notice to every LINE-bound channel (R88 to R91, R93). -/
def Obligations.LineEdgesAndStall : Prop :=
  ∀ s : State, TxdLaw s →
    (∀ k, s.line.candidate = some k → k.count ≤ s.line.filter.toNat →
      exec .lineRise s = .next s ∧ exec .lineFall s = .next s) ∧
    (∀ n, s.line.candidate = some { level := .low, count := n } → s.line.filter.toNat < n →
      exec .lineFall s =
        .next { s with line := { s.line with level := .low, candidate := none } }) ∧
    (∀ n period, s.line.candidate = some { level := .high, count := n } →
      s.line.filter.toNat < n →
      ((s.line.lastEdge = none ∨ s.line.freshEdges = 0) ∧ period = s.line.period ∨
        ∃ e q, s.line.lastEdge = some e ∧ s.line.quiet = some q ∧ 1 ≤ s.line.freshEdges ∧
          period = some (if q < 4294967296 then s.timeBase - e else 4294967295)) →
      ∀ l, l = { s.line with
          lineBase := s.line.lineBase + 1, lineState := .moving, level := .high
          candidate := none, lastEdge := some s.timeBase, period := period
          freshEdges := if s.line.freshEdges < 2 then s.line.freshEdges + 1 else 2
          quiet := some 0 } →
      (s.line.lineState ≠ .stalled → exec .lineRise s = .next { s with line := l }) ∧
      (∀ q, s.line.lineState = .stalled → s.line.quiet = some q →
        exec .lineRise s =
          .next (arbitrate
            { s with line := l
                     session := s.session.submit
                       (.lineResumed (BitVec.ofNat 32 (q / 1000))) }))) ∧
    (∀ q e, s.line.lineState = .moving → s.line.quiet = some q → s.line.lastEdge = some e →
      ((s.line.stallLimit = 0 ∨ q < s.line.stallLimit.toNat * 1000) →
        exec .lineStallDetected s = .next s) ∧
      (s.line.stallLimit ≠ 0 → s.line.stallLimit.toNat * 1000 ≤ q →
        exec .lineStallDetected s =
          .next (arbitrate
            { s with
              line := { s.line with lineState := .stalled, period := some 0, freshEdges := 0 }
              session := s.session.submit (.lineStall s.line.lineBase e)
              channels := s.channels.map fun ch =>
                if ch.lineBound then { ch with stallNotices := ch.stallNotices + 1 }
                else ch })))

/-- An accepted capture edge takes both stamps and the preset mark of its moment, is delivered to
the channel of every matching route in route id order, and is offered to every channel whose
armed watch names the input; the accepted level moves, and an earlier candidate is not accepted
(R104, R105, R106, R117, R118). What waits at a channel until taken is log 5, and the offset sum
of a stamp log 6. -/
def Obligations.CaptureEdgeIsHandedOn : Prop :=
  ∀ (s : State) (i : Fin 4) (level : Level) (n : Nat), (s.input i).mode ≠ .off →
    (s.input i).candidate = some { level := level, count := n } →
    (n ≤ (s.input i).filter.toNat → exec (.captureEdge i) s = .next s) ∧
    ((s.input i).filter.toNat < n → ∀ (edge : Edge) (stamp : Stamp),
      edge = (if level = .high then .rise else .fall) →
      stamp = { time := s.timeBase, line := s.line.lineBase, mark := s.line.presetsMade
                offset := s.line.offsetSum } →
      ∃ t, exec (.captureEdge i) s = .next t ∧
        (t.input i).level = some level ∧ (t.input i).candidate = none ∧
        (∀ j, j ≠ i → t.input j = s.input j) ∧ t.capture.routes = s.capture.routes ∧
        t.line = s.line ∧ t.store = s.store ∧ t.cutoff = s.cutoff ∧
        ∀ c, t.chan c =
          { s.chan c with
            triggers := (s.chan c).triggers ++
              ((allRoutes.filter fun id =>
                match s.route id with
                | some w => w.channel == c && w.input == i &&
                    (w.edge == .both || (w.edge == .rise) == (edge == .rise))
                | none => false).map fun id =>
                { route := id, input := i, edge := edge, stamp := stamp })
            offers := (s.chan c).offers ++
              if ((s.chan c).firing.bind fun f => f.watch).any fun w => w.input == i then
                [({ input := i, edge := edge, stamp := stamp } : Offer)]
              else [] })

/-- What an accepted edge logs by the input's mode: EDGES the edges it selects, a WIDTH mode the
closing edge with the count since its opening edge, a PERIOD mode each timed edge after the first;
a count of 2^24 or more saturates. The logged event takes the next number, with both points of the
moment, or is dropped and counted when the log is full; while streaming is on and the session OPEN
the entry kept makes the moves that the report queue has room for. The arbiter then chooses (R103,
R107, R108, R109, R110, R119, R120, R121, R125, R152, R165, R167). -/
def Obligations.CaptureEdgeIsLogged : Prop :=
  ∀ (s : State) (i : Fin 4) (level : Level) (n : Nat), (s.input i).mode ≠ .off →
    (s.input i).candidate = some { level := level, count := n } →
    (s.input i).filter.toNat < n →
    ∀ (m : Option Measure) (kind : CapKind) (value : BitVec 24) (saturated : Bool)
      (fresh : Measure), m = (s.input i).measure → fresh = { start := s.timeBase, elapsed := 0 } →
    ∀ measured, measured = (∃ x, m = some x ∧
        ((x.elapsed < 16777216 ∧ value.toNat = x.elapsed ∧ saturated = false) ∨
          (16777216 ≤ x.elapsed ∧ value.toNat = 16777215 ∧ saturated = true))) →
    ∀ r, r = { s.input i with level := some level, candidate := none } →
      (∀ m', (((s.input i).mode = .edges ∧ m' = m ∧
              ((s.input i).logEdges = .none ∨ ((s.input i).logEdges = .rise ∧ level = .low) ∨
                ((s.input i).logEdges = .fall ∧ level = .high))) ∨
            ((s.input i).mode = .widthHigh ∧ level = .high ∧ m' = some fresh) ∨
            ((s.input i).mode = .widthHigh ∧ level = .low ∧ m = none ∧ m' = none) ∨
            ((s.input i).mode = .widthLow ∧ level = .low ∧ m' = some fresh) ∨
            ((s.input i).mode = .widthLow ∧ level = .high ∧ m = none ∧ m' = none) ∨
            ((s.input i).mode = .periodRise ∧ level = .high ∧ m = none ∧ m' = some fresh) ∨
            ((s.input i).mode = .periodRise ∧ level = .low ∧ m' = m) ∨
            ((s.input i).mode = .periodFall ∧ level = .low ∧ m = none ∧ m' = some fresh) ∨
            ((s.input i).mode = .periodFall ∧ level = .high ∧ m' = m)) →
        ∃ u, exec (.captureEdge i) s = .next (arbitrate u) ∧ u.link = s.link ∧
          u.capture = { s.capture with inputs := s.capture.inputs.set i { r with measure := m' } } ∧
          u.session = s.session) ∧
      (∀ m', (((s.input i).mode = .edges ∧ m' = m ∧ value = 0 ∧ saturated = false ∧
              ((level = .high ∧ kind = .rise ∧ ((s.input i).logEdges = .rise ∨
                  (s.input i).logEdges = .both)) ∨
                (level = .low ∧ kind = .fall ∧ ((s.input i).logEdges = .fall ∨
                  (s.input i).logEdges = .both)))) ∨
            ((s.input i).mode = .widthHigh ∧ level = .low ∧ measured ∧ kind = .widthHigh ∧
              m' = none) ∨
            ((s.input i).mode = .widthLow ∧ level = .high ∧ measured ∧ kind = .widthLow ∧
              m' = none) ∨
            ((s.input i).mode = .periodRise ∧ level = .high ∧ measured ∧ kind = .period ∧
              m' = some fresh) ∨
            ((s.input i).mode = .periodFall ∧ level = .low ∧ measured ∧ kind = .period ∧
              m' = some fresh)) →
        ∃ u, exec (.captureEdge i) s = .next (arbitrate u) ∧ u.link = s.link ∧
          (s.capture.log.length < 64 → ∀ kept, kept =
              { s.capture with
                inputs := s.capture.inputs.set i { r with measure := m' }
                log := s.capture.log ++
                  [{ number := s.capture.nextNumber, input := i, kind := kind
                     time := s.timeBase, line := s.line.lineBase, value := value
                     saturated := saturated }]
                nextNumber := s.capture.nextNumber + 1 } →
            (s.capture.streaming = false ∨ s.session.state = .closed →
              u.capture = kept ∧ u.session = s.session) ∧
            (s.capture.streaming = true → s.session.state = .opened →
              MovesTo s.timeBase s.line.lineBase kept s.session u.capture u.session)) ∧
          (64 ≤ s.capture.log.length → u.session = s.session ∧
            u.capture =
              { s.capture with
                inputs := s.capture.inputs.set i { r with measure := m' }
                nextNumber := s.capture.nextNumber + 1
                dropCount := if s.capture.dropCount = 65535 then 65535
                             else s.capture.dropCount + 1
                lastDropped := some i }))

/-! ## Timers -/

/-- When the silence timer expires the latch is tripped with SILENCE and the session closes with
cause SILENCE, in one event; when the resend timer expires every SENT report becomes RESEND and the
timer stops; before its expiry point a timer does nothing (R130, R159, R162, R170). -/
def Obligations.TimersExpire : Prop :=
  ∀ s : State,
    ((∀ p ∈ s.session.silenceTimer, atOrAfter s.timeBase p = false) →
      exec .silenceExpiry s = .next s) ∧
    (∀ p u, s.session.silenceTimer = some p → atOrAfter s.timeBase p = true → TxdLaw s →
      u = trip s .silence →
      ∃ t, exec .silenceExpiry s = .next t ∧
        u.cutoff.latch = .tripped ∧ u.cutoff.causes.silence = true ∧
        t.cutoff = u.cutoff ∧ t.channels = u.channels ∧ OpenDiscarded u t ∧
        t.session = u.session.closed .silence ∧
        t.capture = { s.capture with streaming := false } ∧
        t.link = { s.link with cache := [] } ∧ t.line = s.line ∧ t.timeBase = s.timeBase) ∧
    ((∀ p ∈ s.session.resendTimer, atOrAfter s.timeBase p = false) →
      exec .resendExpiry s = .next s) ∧
    (∀ p, s.session.resendTimer = some p → atOrAfter s.timeBase p = true →
      exec .resendExpiry s =
        .next (arbitrate
          { s with
            session :=
              { s.session with
                reports := s.session.reports.map fun x =>
                  if x.state = .sent then { x with state := .resend } else x
                resendTimer := none } }))

/-! ## Channel happenings -/

/-- The head entry at its due point: with no firing in progress it starts now, with lateness the
distance from its due point; with one, DEFER holds it and changes nothing; and under DROP every
entry that is due while a firing is in progress is discarded as BUSY, one by one, an entry that the
examination of R62 left behind the firing it started among them (log 30). Before the due point
nothing happens (R30, R59, R60). The reports of the event are judged one at a time, and the arbiter
chooses after them (R152, R165; log 7). -/
def Obligations.HeadEntryStartsOrWaits : Prop :=
  ∀ (s : State) (c : Fin 8) (b : Binding) (x : Entry) (rest : List Entry) (now : Word),
    TxdLaw s → (s.chan c).active = some b → (s.chan c).queue = x :: rest → now = chanNow s c →
    (atOrAfter now x.due = false → exec (.headEntryDue c) s = .next s) ∧
    (atOrAfter now x.due = true →
      ((s.chan c).firing ≠ none → b.overlap = .defer →
        exec (.headEntryDue c) s = .next s) ∧
      (∀ lost kept, (s.chan c).firing ≠ none → (s.chan c).inService = true →
        b.overlap = .drop → x :: rest = lost ++ kept →
        (∀ y ∈ lost, atOrAfter now y.due = true) →
        (∀ y ∈ kept.head?, atOrAfter now y.due = false) →
        exec (.headEntryDue c) s =
          .next (arbitrate
            { s.setChan c
                { s.chan c with
                  queue := kept
                  missed := (s.chan c).missed + BitVec.ofNat 16 lost.length } with
              session := submitAll (lostReports c .busy lost) s.session })) ∧
      (∀ st more started, (s.chan c).firing = none →
        ((s.chan c).state = .ready ∨ (s.chan c).state = .draining) →
        (s.prog b.program).steps = st :: more →
        started = runsStep b.idle (startedAt (some x) (s.prog b.program).loopCount now) 0 st now
          { s.chan c with
            state := if (s.chan c).state = .draining then .draining else .running
            queue := rest } →
        (b.overlap = .defer → exec (.headEntryDue c) s = .next (s.setChan c started)) ∧
        (∀ lost kept, b.overlap = .drop → rest = lost ++ kept →
          (∀ y ∈ lost, atOrAfter now y.due = true) →
          (∀ y ∈ kept.head?, atOrAfter now y.due = false) →
          exec (.headEntryDue c) s =
            .next (arbitrate
              { s.setChan c
                  { started with
                    queue := kept
                    missed := (s.chan c).missed + BitVec.ofNat 16 lost.length } with
                session := submitAll (lostReports c .busy lost) s.session }))))

/-- Every head entry whose due point is 2^30 or more in the past is discarded as LATE, one by one,
whatever the channel's state; a head nearer than that is left (R52, R71). The reports of the event
are judged one at a time, and the arbiter chooses after them (R152, R165; log 7). -/
def Obligations.OverdueEntriesAreDiscarded : Prop :=
  ∀ (s : State) (c : Fin 8),
    (∀ lost kept, (s.chan c).queue = lost ++ kept →
      (∀ y ∈ lost, atOrAfter (chanNow s c) (y.due + 1073741824) = true) →
      (∀ y ∈ kept.head?, atOrAfter (chanNow s c) (y.due + 1073741824) = false) →
      (lost = [] → exec (.entryOverdueDiscard c) s = .next s) ∧
      (lost ≠ [] →
        exec (.entryOverdueDiscard c) s =
          .next (arbitrate
            { s.setChan c
                { s.chan c with
                  queue := kept
                  missed := (s.chan c).missed + BitVec.ofNat 16 lost.length } with
              session := submitAll (lostReports c .late lost) s.session })))

/-- A step that ends, at its end point, by timeout or by its watched edge, hands over at that point
to the next step in index order, and past the last step of a TRIGGERED program with runs of the
loop left to the step at the loop start. An offered edge does not end the step, and changes only the
channel's offers, where nothing is running, no watch is armed, the watch names another input or kind
of edge, or the edge is stamped before the step began (R22, R32, R33, R36, R37, R43, R118; the last
of these is log 13, and where an offer waits log 5). -/
def Obligations.StepEndRunsTheNextStep : Prop :=
  (∀ (i : Instr) (s : State) (c : Fin 8) (b : Binding) (f : Firing) (e : Word) (s1 : State),
    EndsStep i s c b f e s1 →
    (∀ st, (s.prog b.program).steps[f.stepIndex + 1]? = some st →
      exec i s =
        .next (arbitrate
          (s1.setChan c (runsStep b.idle f (f.stepIndex + 1) st e (s1.chan c))))) ∧
    (∀ st n, (s.prog b.program).steps.length ≤ f.stepIndex + 1 → b.mode = .triggered →
      (s.prog b.program).steps[(s.prog b.program).loopStart]? = some st →
      (((s.prog b.program).loopCount = 0 ∧ n = f.loopRuns) ∨
        ((s.prog b.program).loopCount ≠ 0 ∧ f.loopRuns ≠ 0 ∧ n = f.loopRuns - 1)) →
      exec i s =
        .next (arbitrate
          (s1.setChan c
            (runsStep b.idle { f with loopRuns := n } (s.prog b.program).loopStart st e
              (s1.chan c)))))) ∧
  ∀ (s : State) (c : Fin 8) (o : Offer) (rest : List Offer), TxdLaw s →
    (s.chan c).offers = o :: rest →
    ((s.chan c).inService = false ∨ (s.chan c).firing = none ∨
      ∃ f, (s.chan c).firing = some f ∧
        (f.watch = none ∨
          (∃ w, f.watch = some w ∧ (w.input ≠ o.input ∨ w.edge ≠ o.edge)) ∨
          atOrAfter (pointOfStamp (s.chan c) o.stamp) f.stepStart = false)) →
    exec (.holdUntilEdge c) s = .next (s.setChan c { s.chan c with offers := rest })

/-- Past the last step of a TRIGGERED program with no run of the loop left the firing ends COMPLETE,
and the firing-end examination follows in the same event (R34, R42, R45, R62, R63, R78). Its reports
are judged one at a time, and the arbiter chooses after them (R152, R165; log 7). An edge stamped
before the step began does not end it (log 13). -/
def Obligations.FiringEndIsExamined : Prop :=
  ∀ (i : Instr) (s : State) (c : Fin 8) (b : Binding) (f : Firing) (e : Word) (s1 : State),
    EndsStep i s c b f e s1 → (s.prog b.program).steps.length ≤ f.stepIndex + 1 →
    (s.prog b.program).loopCount ≠ 0 → f.loopRuns = 0 → b.mode = .triggered →
    f.entry ≠ none →
    ∃ t, exec i s = .next (arbitrate t) ∧ FiringEnds s1 c b e .complete t

/-- A wrap point of a CONTINUOUS pass, at a jump to the loop start and at the return to step 0: the
pending binding becomes active; a DRAINING channel goes to OFF; else the pass goes on, from the
loop start or, under a binding just applied and at the return, as a new pass from step 0 (R31,
R33, R35, R80). An edge stamped before the step began does not end it (log 13). -/
def Obligations.PassWrapsAtItsPoints : Prop :=
  ∀ (i : Instr) (s : State) (c : Fin 8) (b : Binding) (f : Firing) (e : Word) (s1 : State),
    EndsStep i s c b f e s1 → (s.prog b.program).steps.length ≤ f.stepIndex + 1 →
    b.mode = .continuous → ∀ (b1 : Binding) (ch : Channel) (store : Store)
      (reports : List ReportBody), b1 = (s1.chan c).pending.getD b →
      ch = { s1.chan c with active := some b1, pending := none } →
      store = (if (s1.chan c).pending.isSome then lowerUse s1 b.program else s1).store →
      reports = (match (s1.chan c).pending with
                 | none => []
                 | some p => [.bindingApplied c p.program]) →
      ((s.chan c).state = .draining →
        exec i s =
          .next (arbitrate
            { s1.setChan c { ch with state := .off, firing := none, output := b1.idle } with
              store := store
              session := submitAll (reports ++ [.channelOff c .drained]) s1.session })) ∧
      ((s.chan c).state = .running →
        (∀ st n, (s1.chan c).pending = none →
          (s.prog b.program).steps[(s.prog b.program).loopStart]? = some st →
          (((s.prog b.program).loopCount = 0 ∧ n = f.loopRuns) ∨
            ((s.prog b.program).loopCount ≠ 0 ∧ f.loopRuns ≠ 0 ∧ n = f.loopRuns - 1)) →
          exec i s =
            .next (arbitrate
              (s1.setChan c
                (runsStep b.idle { f with loopRuns := n } (s.prog b.program).loopStart st e
                  (s1.chan c))))) ∧
        (∀ st more,
          ((s1.chan c).pending ≠ none ∨
            ((s.prog b.program).loopCount ≠ 0 ∧ f.loopRuns = 0)) →
          (s.prog b1.program).steps = st :: more →
          exec i s =
            .next (arbitrate
              { s1.setChan c
                  (runsStep b1.idle (startedAt none (s.prog b1.program).loopCount e) 0 st e ch)
                with
                store := store, session := submitAll reports s1.session })))

/-- A channel takes a delivered trigger by its state: OFF ignores it; FORCED, DRAINING and a
CONTINUOUS channel refuse it with MISSED; a TRIGGERED channel in READY or RUNNING creates an
entry due at the trigger point plus the delay, or refuses it as QUEUE_FULL; an entry created at the
head with its due point reached is handled in the same event, and starts, is held or is discarded as
BUSY. The trigger point is the stamp on the channel's base, moved by the presets that lie between the
stamp and the channel's count (R49, R53, R54, R55, R59, R60, R61, R69, R71, R98, R117; the offsets
as a sum, log 6). The trigger point told by a FORCED channel without a binding is a free value (log
10). Several reports of the event stand in the queue before the arbiter chooses (R152, R165; log
7). -/
def Obligations.RouteTriggerIsTakenByState : Prop :=
  ∀ (s : State) (c : Fin 8) (x : Trigger) (rest : List Trigger) (p : Word) (u : Channel),
    TxdLaw s → (s.chan c).triggers = x :: rest → p = pointOfStamp (s.chan c) x.stamp →
    u = { s.chan c with triggers := rest } →
    ((s.chan c).lineBound = false → p = x.stamp.time) ∧
    ((s.chan c).lineBound = true → x.stamp.mark = (s.chan c).presetsTaken → p = x.stamp.line) ∧
    ((s.chan c).lineBound = true → x.stamp.mark ≠ (s.chan c).presetsTaken →
      p = x.stamp.line + ((s.chan c).coords - x.stamp.offset)) ∧
    ((s.chan c).state = .off → exec (.routeTrigger c) s = .next (s.setChan c u)) ∧
    (∀ refused, refused = (fun (v : State) (cause : MissedCause) (trigger : Word)
          (due : Option Word) =>
        arbitrate
          { v.setChan c { u with missed := u.missed + 1 } with
            session := v.session.submit
              (.missed { channel := c, cause := cause, count := 1, number := none
                         source := .route x.route x.input x.edge, trigger := trigger
                         due := due }) }) →
      ((s.chan c).state = .forced → (s.chan c).active = none →
        ∃ w, exec (.routeTrigger c) s =
          .next (refused { s with freeCount := s.freeCount + 1 } .cutoff w none)) ∧
      ∀ b, (s.chan c).active = some b →
        ∀ due, due = (if b.mode = .triggered then some (p + b.delay.setWidth 32) else none) →
        ((s.chan c).state = .forced →
          exec (.routeTrigger c) s = .next (refused s .cutoff p due)) ∧
        ((s.chan c).state = .draining →
          exec (.routeTrigger c) s = .next (refused s .stopping p due)) ∧
        ((s.chan c).state = .running → b.mode = .continuous →
          exec (.routeTrigger c) s = .next (refused s .mode p due)) ∧
        (((s.chan c).state = .ready ∨ (s.chan c).state = .running) → b.mode = .triggered →
          16 ≤ u.queue.length →
          exec (.routeTrigger c) s = .next (refused s .queueFull p due)) ∧
        (((s.chan c).state = .ready ∨ (s.chan c).state = .running) → b.mode = .triggered →
          u.queue.length < 16 → ∀ entry,
          entry = { number := u.nextNumber, source := .route x.route x.input x.edge
                    trigger := p, due := p + b.delay.setWidth 32 : Entry } →
          ∃ t, exec (.routeTrigger c) s = .next (arbitrate t) ∧
            EntryCreated (s.setChan c u) c b entry t))

/-- A channel takes a stall notice: with nothing in progress, under HOLD, or no longer LINE-bound it
does nothing; under ABORT a firing is aborted at the line point of the event and the examination
follows, and a CONTINUOUS pass ends with the channel OFF and its pending binding discarded (R39,
R40, R41, R44, R62, R63, R81; when it acts is log 14). The reports of the event are judged one at a
time, and the arbiter chooses after them (R152, R165; log 7). -/
def Obligations.StallNoticeIsActedOn : Prop :=
  ∀ (s : State) (c : Fin 8) (n : Nat) (s1 : State), TxdLaw s →
    (s.chan c).stallNotices = n + 1 →
    s1 = s.setChan c { s.chan c with stallNotices := n } →
    ((s.chan c).firing = none → exec (.stallNotice c) s = .next s1) ∧
    ∀ b f, (s.chan c).active = some b → (s.chan c).firing = some f →
      ((b.base = .time ∨ b.stall = .hold) → exec (.stallNotice c) s = .next s1) ∧
      (b.base = .line → b.stall = .abort → (s.chan c).inService = true →
        (b.mode = .triggered → f.entry ≠ none →
          ∃ t, exec (.stallNotice c) s = .next (arbitrate t) ∧
            FiringEnds s1 c b (chanNow s c) .abortedStall t) ∧
        (b.mode = .continuous →
          exec (.stallNotice c) s =
            .next (arbitrate
              { s.setChan c
                  { s.chan c with
                    stallNotices := n, state := .off, firing := none, pending := none
                    output := b.idle } with
                store := (releaseUse s (s.chan c).pending).store
                session := s.session.submit (.channelOff c .stall) })))

/-- The firing queue is kept in order of due point: a new entry stands behind every entry due no
later than it and ahead of every entry due later, in distances from now (R51). -/
def Obligations.EntriesStandInDueOrder : Prop :=
  ∀ (now : Word) (x : Entry) (queue : List Entry),
    queue.Pairwise (fun a b => (a.due - now).toInt ≤ (b.due - now).toInt) →
    insertEntry now x queue =
      queue.filter (fun y => decide ((y.due - now).toInt ≤ (x.due - now).toInt)) ++ x ::
        queue.filter (fun y => decide ((x.due - now).toInt < (y.due - now).toInt)) ∧
    (insertEntry now x queue).Pairwise
      (fun a b => (a.due - now).toInt ≤ (b.due - now).toInt)

/-! ## Reports -/

/-- A submitted report is discarded with no session and under the mask, which spares urgent and
CAPTURE reports; a MISSED coalesces into the NEW MISSED of its channel and cause; an urgent report
takes any free slot, an ordinary one is admitted at three free slots or more, so that two are kept
for urgent ones, after the REPORTS_LOST check; and a report that finds no room is counted as lost in
its class (R163 to R167; coalesced fields log 11). -/
def Obligations.SubmissionIsJudged : Prop :=
  ∀ (se : Session) (body : ReportBody),
    (se.state = .closed → se.submit body = se) ∧
    ∀ m, se.state = .opened → se.mask = some m →
      ∀ (free : Nat), free = 32 - se.reports.length →
      (((body.kind = 0xC1 ∧ m.firing = false) ∨ (body.kind = 0xC2 ∧ m.missed = false) ∨
          (body.kind = 0xC3 ∧ m.step = false) ∨
          ((body.kind = 0xC4 ∨ body.kind = 0xC5) ∧ m.channel = false) ∨
          (body.kind = 0xC7 ∧ m.line = false)) → se.submit body = se) ∧
      (∀ (x z : MissedReport) before q y after, m.missed = true → body = .missed x →
        se.reports = before ++ q :: after → q.body = .missed y → q.state = .new →
        y.channel = x.channel → y.cause = x.cause →
        (∀ v ∈ before, ∀ w, v.body = .missed w →
          ¬ (v.state = .new ∧ w.channel = x.channel ∧ w.cause = x.cause)) →
        z = { x with count := BitVec.ofNat 16 (min 65535 (y.count.toNat + x.count.toNat)) } →
        se.submit body =
          { se with reports := before ++ ({ q with body := .missed z } : Report) :: after }) ∧
      (body.kind = 0xC6 ∨ body.kind = 0xC9 ∨ body.kind = 0xCA →
        se.submit body =
          if 1 ≤ free then
            { se with
              reports := se.reports ++ [{ sequence := se.nextSequence, body := body
                                          session := se.number, state := .new }]
              nextSequence := se.nextSequence + 1 }
          else
            { se with lost := { se.lost with
                urgent := if se.lost.urgent = 65535 then 65535 else se.lost.urgent + 1 } }) ∧
      (∀ up : LostCounts → LostCounts,
        ((body.kind = 0xC1 ∧ m.firing = true ∧ up = fun l =>
            { l with firing := l.firing.satSucc }) ∨
          ((∃ x, body = .missed x ∧ ∀ q ∈ se.reports, ∀ y, q.body = .missed y →
              ¬ (q.state = .new ∧ y.channel = x.channel ∧ y.cause = x.cause)) ∧
            m.missed = true ∧ up = fun l => { l with missed := l.missed.satSucc }) ∨
          (body.kind = 0xC3 ∧ m.step = true ∧ up = fun l =>
            { l with step := l.step.satSucc }) ∨
          ((body.kind = 0xC4 ∨ body.kind = 0xC5) ∧ m.channel = true ∧ up = fun l =>
            { l with channel := l.channel.satSucc }) ∨
          (body.kind = 0xC7 ∧ m.line = true ∧ up = fun l =>
            { l with line := l.line.satSucc })) →
        (se.lost = LostCounts.zero → 3 ≤ free →
          se.submit body =
            { se with
              reports := se.reports ++ [{ sequence := se.nextSequence, body := body
                                          session := se.number, state := .new }]
              nextSequence := se.nextSequence + 1 }) ∧
        (se.lost ≠ LostCounts.zero → 4 ≤ free →
          se.submit body =
            { se with
              reports := se.reports ++
                [{ sequence := se.nextSequence, body := .reportsLost se.lost
                   session := se.number, state := .new },
                 { sequence := se.nextSequence + 1, body := body, session := se.number
                   state := .new }]
              nextSequence := se.nextSequence + 2
              lost := LostCounts.zero }) ∧
        (se.lost ≠ LostCounts.zero → free = 3 →
          se.submit body =
            { se with
              reports := se.reports ++
                [{ sequence := se.nextSequence, body := .reportsLost se.lost
                   session := se.number, state := .new }]
              nextSequence := se.nextSequence + 1
              lost := up LostCounts.zero }) ∧
        (free < 3 → se.submit body = { se with lost := up se.lost }))

/-! ## Frames on RXD, and what every step keeps -/

/-- Decoding and encoding agree: the bytes of any frame of up to 240 payload bytes, received from
HUNT with no session open, put exactly that frame's KIND, TAG, payload and CRC at the tail of
the request queue, and change nothing else (R141, R142, R144, R145). The last CRC byte is
carried out by RECEIVED_BYTE (log 20), and the receiver has listened for a whole character (R155;
log 32). -/
def Obligations.FrameBytesDecodeToTheRequest : Prop :=
  ∀ (s : State) (f : Frame), s.startUp = false → 10000000 ≤ s.link.listened →
    s.link.framer = .hunt →
    s.session.state = .closed → s.session.silenceTimer = none → TxdLaw s →
    s.link.requestQueue.length < 4 → f.payload.length ≤ 240 →
    afterBytes f.bytes s =
      { s with link := { s.link with requestQueue := s.link.requestQueue ++
          [{ kind := f.kind, tag := f.tag, payload := f.payload, crc := f.crc }] } }

/-- Every step keeps the laws of the program store: the pool law, the bounds of the records, at most
one OPEN program and none in a CLOSED session, and the use counts (R1, R4, R7, R14, R16). -/
def Obligations.StepKeepsProgramStoreLaws : Prop :=
  ∀ s t : State, StoreLaw s → step s = .next t → StoreLaw t

/-- Every step keeps the channel law of every channel, and the agreement on the presets made of every
LINE-bound one (R19, R21, R29, R51, R69, R76, R98). -/
def Obligations.StepKeepsChannelLaws : Prop :=
  ∀ s t : State, (∀ c, ChannelLaw (s.chan c)) → PresetLaw s → step s = .next t →
    (∀ c, ChannelLaw (t.chan c)) ∧ PresetLaw t

/-- Every step keeps the latch law: while the latch is TRIPPED every member is FORCED, while it is
CLEAR no channel is, its cause set is empty exactly then, and an asserted CUTOFF_N keeps it TRIPPED
(R127, R128). -/
def Obligations.StepKeepsLatchLaw : Prop :=
  ∀ s t : State, CutoffLaw s → step s = .next t → CutoffLaw t

/-- Every step keeps the laws of the line unit, and the laws of the capture unit with its numbered
log, its distinct routes and no streaming without a session (R88, R103, R113, R119, R121, R122). -/
def Obligations.StepKeepsInputUnitLaws : Prop :=
  ∀ s t : State, step s = .next t →
    (LineLaw s.line → LineLaw t.line) ∧ (CaptureLaw s → CaptureLaw t)

/-- Every step keeps the bounds of the link's queues and cache, one cache entry a tag and none in a
CLOSED session, the receiver not listening during start-up, and TXD busy while anything waits to be
sent (R145, R148, R149, R152, R155; the time listened is log 32). -/
def Obligations.StepKeepsLinkLaws : Prop :=
  ∀ s t : State, LinkLaw s → step s = .next t → LinkLaw t

/-- Every step keeps the report queue law: at most 32 reports, numbered without a gap, SENT before
RESEND before NEW, at most 8 unacknowledged, no two NEW MISSED of one channel and cause; and what a
CLOSED and an OPEN session hold, and when the resend timer runs (R158, R160, R162, R164, R166,
R170). -/
def Obligations.StepKeepsReportQueueLaws : Prop :=
  ∀ s t : State, SessionLaw s.session → step s = .next t → SessionLaw t.session
end

