-- ==== Sys2Proof/Laws/State.lean ====
section
/-! SUPPORT. What each update of the state leaves unchanged: one lemma per field per update, and the
reads of a record after it. -/

namespace Sys2Proof.Machine

/-! ## One channel's record -/

@[simp] theorem setChan_timeBase (s : State) (c : Fin 8) (ch : Channel) :
    (s.setChan c ch).timeBase = s.timeBase := rfl
@[simp] theorem setChan_line (s : State) (c : Fin 8) (ch : Channel) :
    (s.setChan c ch).line = s.line := rfl
@[simp] theorem setChan_store (s : State) (c : Fin 8) (ch : Channel) :
    (s.setChan c ch).store = s.store := rfl
@[simp] theorem setChan_capture (s : State) (c : Fin 8) (ch : Channel) :
    (s.setChan c ch).capture = s.capture := rfl
@[simp] theorem setChan_cutoff (s : State) (c : Fin 8) (ch : Channel) :
    (s.setChan c ch).cutoff = s.cutoff := rfl
@[simp] theorem setChan_link (s : State) (c : Fin 8) (ch : Channel) :
    (s.setChan c ch).link = s.link := rfl
@[simp] theorem setChan_session (s : State) (c : Fin 8) (ch : Channel) :
    (s.setChan c ch).session = s.session := rfl
@[simp] theorem setChan_startUp (s : State) (c : Fin 8) (ch : Channel) :
    (s.setChan c ch).startUp = s.startUp := rfl
@[simp] theorem setChan_pins (s : State) (c : Fin 8) (ch : Channel) :
    (s.setChan c ch).pins = s.pins := rfl
@[simp] theorem setChan_freeCount (s : State) (c : Fin 8) (ch : Channel) :
    (s.setChan c ch).freeCount = s.freeCount := rfl
@[simp] theorem setChan_pending (s : State) (c : Fin 8) (ch : Channel) :
    (s.setChan c ch).pending = s.pending := rfl

@[simp] theorem setChan_prog (s : State) (c : Fin 8) (ch : Channel) (q0 : Fin 32) :
    (s.setChan c ch).prog q0 = s.prog q0 := rfl
@[simp] theorem setChan_input (s : State) (c : Fin 8) (ch : Channel) (i0 : Fin 4) :
    (s.setChan c ch).input i0 = s.input i0 := rfl
@[simp] theorem setChan_route (s : State) (c : Fin 8) (ch : Channel) (id0 : Fin 16) :
    (s.setChan c ch).route id0 = s.route id0 := rfl

theorem setChan_chan (s : State) (c d : Fin 8) (ch : Channel) :
    (s.setChan c ch).chan d = if d = c then ch else s.chan d := by
  by_cases h : d = c
  · subst h; simp [State.setChan, State.chan]
  · have : (c : Nat) ≠ d := fun e => h (Fin.ext e.symm)
    simp [State.setChan, State.chan, h, Vector.getElem_set_ne, this]

@[simp] theorem setChan_chan_same (s : State) (c : Fin 8) (ch : Channel) :
    (s.setChan c ch).chan c = ch := by simp [setChan_chan]

theorem setChan_chan_ne (s : State) {c d : Fin 8} (ch : Channel) (h : d ≠ c) :
    (s.setChan c ch).chan d = s.chan d := by simp [setChan_chan, h]

@[simp] theorem setChan_setChan (s : State) (c : Fin 8) (a b : Channel) :
    (s.setChan c a).setChan c b = s.setChan c b := by
  simp [State.setChan, Vector.set_set]

@[simp] theorem setChan_self (s : State) (c : Fin 8) : s.setChan c (s.chan c) = s := by
  simp [State.setChan, State.chan]

/-- Two states with the same records and the same other fields are equal. -/
theorem channels_ext {s t : State} (h : ∀ c, s.chan c = t.chan c) : s.channels = t.channels := by
  apply Vector.ext
  intro i hi
  exact h ⟨i, hi⟩

@[simp] theorem modChan_timeBase (s : State) (c : Fin 8) (f : Channel → Channel) :
    (s.modChan c f).timeBase = s.timeBase := rfl
@[simp] theorem modChan_line (s : State) (c : Fin 8) (f : Channel → Channel) :
    (s.modChan c f).line = s.line := rfl
@[simp] theorem modChan_store (s : State) (c : Fin 8) (f : Channel → Channel) :
    (s.modChan c f).store = s.store := rfl
@[simp] theorem modChan_capture (s : State) (c : Fin 8) (f : Channel → Channel) :
    (s.modChan c f).capture = s.capture := rfl
@[simp] theorem modChan_cutoff (s : State) (c : Fin 8) (f : Channel → Channel) :
    (s.modChan c f).cutoff = s.cutoff := rfl
@[simp] theorem modChan_link (s : State) (c : Fin 8) (f : Channel → Channel) :
    (s.modChan c f).link = s.link := rfl
@[simp] theorem modChan_session (s : State) (c : Fin 8) (f : Channel → Channel) :
    (s.modChan c f).session = s.session := rfl
@[simp] theorem modChan_startUp (s : State) (c : Fin 8) (f : Channel → Channel) :
    (s.modChan c f).startUp = s.startUp := rfl
@[simp] theorem modChan_pins (s : State) (c : Fin 8) (f : Channel → Channel) :
    (s.modChan c f).pins = s.pins := rfl
@[simp] theorem modChan_freeCount (s : State) (c : Fin 8) (f : Channel → Channel) :
    (s.modChan c f).freeCount = s.freeCount := rfl
@[simp] theorem modChan_pending (s : State) (c : Fin 8) (f : Channel → Channel) :
    (s.modChan c f).pending = s.pending := rfl

@[simp] theorem modChan_prog (s : State) (c : Fin 8) (f : Channel → Channel) (q0 : Fin 32) :
    (s.modChan c f).prog q0 = s.prog q0 := rfl
@[simp] theorem modChan_input (s : State) (c : Fin 8) (f : Channel → Channel) (i0 : Fin 4) :
    (s.modChan c f).input i0 = s.input i0 := rfl
@[simp] theorem modChan_route (s : State) (c : Fin 8) (f : Channel → Channel) (id0 : Fin 16) :
    (s.modChan c f).route id0 = s.route id0 := rfl

theorem modChan_eq (s : State) (c : Fin 8) (f : Channel → Channel) :
    s.modChan c f = s.setChan c (f (s.chan c)) := rfl

@[simp] theorem modChan_chan_same (s : State) (c : Fin 8) (f : Channel → Channel) :
    (s.modChan c f).chan c = f (s.chan c) := by simp [State.modChan]

theorem modChan_chan_ne (s : State) {c d : Fin 8} (f : Channel → Channel) (h : d ≠ c) :
    (s.modChan c f).chan d = s.chan d := by simp [State.modChan, setChan_chan_ne, h]

/-! ## One program, input or route -/

@[simp] theorem setProg_timeBase (s : State) (q : Fin 32) (p : Program) :
    (s.setProg q p).timeBase = s.timeBase := rfl
@[simp] theorem setProg_line (s : State) (q : Fin 32) (p : Program) :
    (s.setProg q p).line = s.line := rfl
@[simp] theorem setProg_channels (s : State) (q : Fin 32) (p : Program) :
    (s.setProg q p).channels = s.channels := rfl
@[simp] theorem setProg_capture (s : State) (q : Fin 32) (p : Program) :
    (s.setProg q p).capture = s.capture := rfl
@[simp] theorem setProg_cutoff (s : State) (q : Fin 32) (p : Program) :
    (s.setProg q p).cutoff = s.cutoff := rfl
@[simp] theorem setProg_link (s : State) (q : Fin 32) (p : Program) :
    (s.setProg q p).link = s.link := rfl
@[simp] theorem setProg_session (s : State) (q : Fin 32) (p : Program) :
    (s.setProg q p).session = s.session := rfl
@[simp] theorem setProg_startUp (s : State) (q : Fin 32) (p : Program) :
    (s.setProg q p).startUp = s.startUp := rfl
@[simp] theorem setProg_pins (s : State) (q : Fin 32) (p : Program) :
    (s.setProg q p).pins = s.pins := rfl
@[simp] theorem setProg_freeCount (s : State) (q : Fin 32) (p : Program) :
    (s.setProg q p).freeCount = s.freeCount := rfl
@[simp] theorem setProg_pending (s : State) (q : Fin 32) (p : Program) :
    (s.setProg q p).pending = s.pending := rfl

@[simp] theorem setProg_chan (s : State) (q : Fin 32) (p : Program) (c0 : Fin 8) :
    (s.setProg q p).chan c0 = s.chan c0 := rfl
@[simp] theorem setProg_input (s : State) (q : Fin 32) (p : Program) (i0 : Fin 4) :
    (s.setProg q p).input i0 = s.input i0 := rfl
@[simp] theorem setProg_route (s : State) (q : Fin 32) (p : Program) (id0 : Fin 16) :
    (s.setProg q p).route id0 = s.route id0 := rfl

@[simp] theorem setProg_freeSlots (s : State) (q : Fin 32) (p : Program) :
    (s.setProg q p).store.freeSlots = s.store.freeSlots := rfl

theorem setProg_prog (s : State) (q r : Fin 32) (p : Program) :
    (s.setProg q p).prog r = if r = q then p else s.prog r := by
  by_cases h : r = q
  · subst h; simp [State.setProg, State.prog]
  · have : (q : Nat) ≠ r := fun e => h (Fin.ext e.symm)
    simp [State.setProg, State.prog, h, Vector.getElem_set_ne, this]

@[simp] theorem setProg_prog_same (s : State) (q : Fin 32) (p : Program) :
    (s.setProg q p).prog q = p := by simp [setProg_prog]

@[simp] theorem setInput_timeBase (s : State) (i : Fin 4) (r : CapInput) :
    (s.setInput i r).timeBase = s.timeBase := rfl
@[simp] theorem setInput_line (s : State) (i : Fin 4) (r : CapInput) :
    (s.setInput i r).line = s.line := rfl
@[simp] theorem setInput_store (s : State) (i : Fin 4) (r : CapInput) :
    (s.setInput i r).store = s.store := rfl
@[simp] theorem setInput_channels (s : State) (i : Fin 4) (r : CapInput) :
    (s.setInput i r).channels = s.channels := rfl
@[simp] theorem setInput_cutoff (s : State) (i : Fin 4) (r : CapInput) :
    (s.setInput i r).cutoff = s.cutoff := rfl
@[simp] theorem setInput_link (s : State) (i : Fin 4) (r : CapInput) :
    (s.setInput i r).link = s.link := rfl
@[simp] theorem setInput_session (s : State) (i : Fin 4) (r : CapInput) :
    (s.setInput i r).session = s.session := rfl
@[simp] theorem setInput_startUp (s : State) (i : Fin 4) (r : CapInput) :
    (s.setInput i r).startUp = s.startUp := rfl
@[simp] theorem setInput_pins (s : State) (i : Fin 4) (r : CapInput) :
    (s.setInput i r).pins = s.pins := rfl
@[simp] theorem setInput_freeCount (s : State) (i : Fin 4) (r : CapInput) :
    (s.setInput i r).freeCount = s.freeCount := rfl
@[simp] theorem setInput_pending (s : State) (i : Fin 4) (r : CapInput) :
    (s.setInput i r).pending = s.pending := rfl

@[simp] theorem setInput_chan (s : State) (i : Fin 4) (r : CapInput) (c0 : Fin 8) :
    (s.setInput i r).chan c0 = s.chan c0 := rfl
@[simp] theorem setInput_prog (s : State) (i : Fin 4) (r : CapInput) (q0 : Fin 32) :
    (s.setInput i r).prog q0 = s.prog q0 := rfl
@[simp] theorem setInput_route (s : State) (i : Fin 4) (r : CapInput) (id0 : Fin 16) :
    (s.setInput i r).route id0 = s.route id0 := rfl

theorem setInput_input (s : State) (i j : Fin 4) (r : CapInput) :
    (s.setInput i r).input j = if j = i then r else s.input j := by
  by_cases h : j = i
  · subst h; simp [State.setInput, State.input]
  · have : (i : Nat) ≠ j := fun e => h (Fin.ext e.symm)
    simp [State.setInput, State.input, h, Vector.getElem_set_ne, this]

@[simp] theorem setInput_input_same (s : State) (i : Fin 4) (r : CapInput) :
    (s.setInput i r).input i = r := by simp [setInput_input]

@[simp] theorem setRoute_timeBase (s : State) (id : Fin 16) (r : Option Route) :
    (s.setRoute id r).timeBase = s.timeBase := rfl
@[simp] theorem setRoute_line (s : State) (id : Fin 16) (r : Option Route) :
    (s.setRoute id r).line = s.line := rfl
@[simp] theorem setRoute_store (s : State) (id : Fin 16) (r : Option Route) :
    (s.setRoute id r).store = s.store := rfl
@[simp] theorem setRoute_channels (s : State) (id : Fin 16) (r : Option Route) :
    (s.setRoute id r).channels = s.channels := rfl
@[simp] theorem setRoute_cutoff (s : State) (id : Fin 16) (r : Option Route) :
    (s.setRoute id r).cutoff = s.cutoff := rfl
@[simp] theorem setRoute_link (s : State) (id : Fin 16) (r : Option Route) :
    (s.setRoute id r).link = s.link := rfl
@[simp] theorem setRoute_session (s : State) (id : Fin 16) (r : Option Route) :
    (s.setRoute id r).session = s.session := rfl
@[simp] theorem setRoute_startUp (s : State) (id : Fin 16) (r : Option Route) :
    (s.setRoute id r).startUp = s.startUp := rfl
@[simp] theorem setRoute_pins (s : State) (id : Fin 16) (r : Option Route) :
    (s.setRoute id r).pins = s.pins := rfl
@[simp] theorem setRoute_freeCount (s : State) (id : Fin 16) (r : Option Route) :
    (s.setRoute id r).freeCount = s.freeCount := rfl
@[simp] theorem setRoute_pending (s : State) (id : Fin 16) (r : Option Route) :
    (s.setRoute id r).pending = s.pending := rfl

@[simp] theorem setRoute_chan (s : State) (id : Fin 16) (r : Option Route) (c0 : Fin 8) :
    (s.setRoute id r).chan c0 = s.chan c0 := rfl
@[simp] theorem setRoute_prog (s : State) (id : Fin 16) (r : Option Route) (q0 : Fin 32) :
    (s.setRoute id r).prog q0 = s.prog q0 := rfl
@[simp] theorem setRoute_input (s : State) (id : Fin 16) (r : Option Route) (i0 : Fin 4) :
    (s.setRoute id r).input i0 = s.input i0 := rfl

theorem setRoute_route (s : State) (id j : Fin 16) (r : Option Route) :
    (s.setRoute id r).route j = if j = id then r else s.route j := by
  by_cases h : j = id
  · subst h; simp [State.setRoute, State.route]
  · have : (id : Nat) ≠ j := fun e => h (Fin.ext e.symm)
    simp [State.setRoute, State.route, h, Vector.getElem_set_ne, this]

/-! ## Reports, requests and the framer -/

@[simp] theorem submit_timeBase (s : State) (b : ReportBody) :
    (submit s b).timeBase = s.timeBase := rfl
@[simp] theorem submit_line (s : State) (b : ReportBody) :
    (submit s b).line = s.line := rfl
@[simp] theorem submit_store (s : State) (b : ReportBody) :
    (submit s b).store = s.store := rfl
@[simp] theorem submit_channels (s : State) (b : ReportBody) :
    (submit s b).channels = s.channels := rfl
@[simp] theorem submit_capture (s : State) (b : ReportBody) :
    (submit s b).capture = s.capture := rfl
@[simp] theorem submit_cutoff (s : State) (b : ReportBody) :
    (submit s b).cutoff = s.cutoff := rfl
@[simp] theorem submit_link (s : State) (b : ReportBody) :
    (submit s b).link = s.link := rfl
@[simp] theorem submit_startUp (s : State) (b : ReportBody) :
    (submit s b).startUp = s.startUp := rfl
@[simp] theorem submit_pins (s : State) (b : ReportBody) :
    (submit s b).pins = s.pins := rfl
@[simp] theorem submit_freeCount (s : State) (b : ReportBody) :
    (submit s b).freeCount = s.freeCount := rfl
@[simp] theorem submit_pending (s : State) (b : ReportBody) :
    (submit s b).pending = s.pending := rfl

@[simp] theorem submit_chan (s : State) (b : ReportBody) (c0 : Fin 8) :
    (submit s b).chan c0 = s.chan c0 := rfl
@[simp] theorem submit_prog (s : State) (b : ReportBody) (q0 : Fin 32) :
    (submit s b).prog q0 = s.prog q0 := rfl
@[simp] theorem submit_input (s : State) (b : ReportBody) (i0 : Fin 4) :
    (submit s b).input i0 = s.input i0 := rfl
@[simp] theorem submit_route (s : State) (b : ReportBody) (id0 : Fin 16) :
    (submit s b).route id0 = s.route id0 := rfl

@[simp] theorem submit_session (s : State) (b : ReportBody) :
    (submit s b).session = s.session.submit b := rfl

@[simp] theorem setFramer_timeBase (s : State) (f : Framer) :
    (setFramer s f).timeBase = s.timeBase := rfl
@[simp] theorem setFramer_line (s : State) (f : Framer) :
    (setFramer s f).line = s.line := rfl
@[simp] theorem setFramer_store (s : State) (f : Framer) :
    (setFramer s f).store = s.store := rfl
@[simp] theorem setFramer_channels (s : State) (f : Framer) :
    (setFramer s f).channels = s.channels := rfl
@[simp] theorem setFramer_capture (s : State) (f : Framer) :
    (setFramer s f).capture = s.capture := rfl
@[simp] theorem setFramer_cutoff (s : State) (f : Framer) :
    (setFramer s f).cutoff = s.cutoff := rfl
@[simp] theorem setFramer_session (s : State) (f : Framer) :
    (setFramer s f).session = s.session := rfl
@[simp] theorem setFramer_startUp (s : State) (f : Framer) :
    (setFramer s f).startUp = s.startUp := rfl
@[simp] theorem setFramer_pins (s : State) (f : Framer) :
    (setFramer s f).pins = s.pins := rfl
@[simp] theorem setFramer_freeCount (s : State) (f : Framer) :
    (setFramer s f).freeCount = s.freeCount := rfl
@[simp] theorem setFramer_pending (s : State) (f : Framer) :
    (setFramer s f).pending = s.pending := rfl

@[simp] theorem setFramer_chan (s : State) (f : Framer) (c0 : Fin 8) :
    (setFramer s f).chan c0 = s.chan c0 := rfl
@[simp] theorem setFramer_prog (s : State) (f : Framer) (q0 : Fin 32) :
    (setFramer s f).prog q0 = s.prog q0 := rfl
@[simp] theorem setFramer_input (s : State) (f : Framer) (i0 : Fin 4) :
    (setFramer s f).input i0 = s.input i0 := rfl
@[simp] theorem setFramer_route (s : State) (f : Framer) (id0 : Fin 16) :
    (setFramer s f).route id0 = s.route id0 := rfl

@[simp] theorem popRequest_timeBase (s : State) :
    (popRequest s).timeBase = s.timeBase := rfl
@[simp] theorem popRequest_line (s : State) :
    (popRequest s).line = s.line := rfl
@[simp] theorem popRequest_store (s : State) :
    (popRequest s).store = s.store := rfl
@[simp] theorem popRequest_channels (s : State) :
    (popRequest s).channels = s.channels := rfl
@[simp] theorem popRequest_capture (s : State) :
    (popRequest s).capture = s.capture := rfl
@[simp] theorem popRequest_cutoff (s : State) :
    (popRequest s).cutoff = s.cutoff := rfl
@[simp] theorem popRequest_session (s : State) :
    (popRequest s).session = s.session := rfl
@[simp] theorem popRequest_startUp (s : State) :
    (popRequest s).startUp = s.startUp := rfl
@[simp] theorem popRequest_pins (s : State) :
    (popRequest s).pins = s.pins := rfl
@[simp] theorem popRequest_freeCount (s : State) :
    (popRequest s).freeCount = s.freeCount := rfl
@[simp] theorem popRequest_pending (s : State) :
    (popRequest s).pending = s.pending := rfl

@[simp] theorem popRequest_chan (s : State) (c0 : Fin 8) :
    (popRequest s).chan c0 = s.chan c0 := rfl
@[simp] theorem popRequest_prog (s : State) (q0 : Fin 32) :
    (popRequest s).prog q0 = s.prog q0 := rfl
@[simp] theorem popRequest_input (s : State) (i0 : Fin 4) :
    (popRequest s).input i0 = s.input i0 := rfl
@[simp] theorem popRequest_route (s : State) (id0 : Fin 16) :
    (popRequest s).route id0 = s.route id0 := rfl

/-! ## Use counts -/

@[simp] theorem raiseUse_timeBase (s : State) (q : Fin 32) :
    (raiseUse s q).timeBase = s.timeBase := rfl
@[simp] theorem raiseUse_line (s : State) (q : Fin 32) :
    (raiseUse s q).line = s.line := rfl
@[simp] theorem raiseUse_channels (s : State) (q : Fin 32) :
    (raiseUse s q).channels = s.channels := rfl
@[simp] theorem raiseUse_capture (s : State) (q : Fin 32) :
    (raiseUse s q).capture = s.capture := rfl
@[simp] theorem raiseUse_cutoff (s : State) (q : Fin 32) :
    (raiseUse s q).cutoff = s.cutoff := rfl
@[simp] theorem raiseUse_link (s : State) (q : Fin 32) :
    (raiseUse s q).link = s.link := rfl
@[simp] theorem raiseUse_session (s : State) (q : Fin 32) :
    (raiseUse s q).session = s.session := rfl
@[simp] theorem raiseUse_startUp (s : State) (q : Fin 32) :
    (raiseUse s q).startUp = s.startUp := rfl
@[simp] theorem raiseUse_pins (s : State) (q : Fin 32) :
    (raiseUse s q).pins = s.pins := rfl
@[simp] theorem raiseUse_freeCount (s : State) (q : Fin 32) :
    (raiseUse s q).freeCount = s.freeCount := rfl
@[simp] theorem raiseUse_pending (s : State) (q : Fin 32) :
    (raiseUse s q).pending = s.pending := rfl

@[simp] theorem raiseUse_chan (s : State) (q : Fin 32) (c0 : Fin 8) :
    (raiseUse s q).chan c0 = s.chan c0 := rfl
@[simp] theorem raiseUse_input (s : State) (q : Fin 32) (i0 : Fin 4) :
    (raiseUse s q).input i0 = s.input i0 := rfl
@[simp] theorem raiseUse_route (s : State) (q : Fin 32) (id0 : Fin 16) :
    (raiseUse s q).route id0 = s.route id0 := rfl

@[simp] theorem raiseUse_freeSlots (s : State) (q : Fin 32) :
    (raiseUse s q).store.freeSlots = s.store.freeSlots := rfl

@[simp] theorem lowerUse_timeBase (s : State) (q : Fin 32) :
    (lowerUse s q).timeBase = s.timeBase := rfl
@[simp] theorem lowerUse_line (s : State) (q : Fin 32) :
    (lowerUse s q).line = s.line := rfl
@[simp] theorem lowerUse_channels (s : State) (q : Fin 32) :
    (lowerUse s q).channels = s.channels := rfl
@[simp] theorem lowerUse_capture (s : State) (q : Fin 32) :
    (lowerUse s q).capture = s.capture := rfl
@[simp] theorem lowerUse_cutoff (s : State) (q : Fin 32) :
    (lowerUse s q).cutoff = s.cutoff := rfl
@[simp] theorem lowerUse_link (s : State) (q : Fin 32) :
    (lowerUse s q).link = s.link := rfl
@[simp] theorem lowerUse_session (s : State) (q : Fin 32) :
    (lowerUse s q).session = s.session := rfl
@[simp] theorem lowerUse_startUp (s : State) (q : Fin 32) :
    (lowerUse s q).startUp = s.startUp := rfl
@[simp] theorem lowerUse_pins (s : State) (q : Fin 32) :
    (lowerUse s q).pins = s.pins := rfl
@[simp] theorem lowerUse_freeCount (s : State) (q : Fin 32) :
    (lowerUse s q).freeCount = s.freeCount := rfl
@[simp] theorem lowerUse_pending (s : State) (q : Fin 32) :
    (lowerUse s q).pending = s.pending := rfl

@[simp] theorem lowerUse_chan (s : State) (q : Fin 32) (c0 : Fin 8) :
    (lowerUse s q).chan c0 = s.chan c0 := rfl
@[simp] theorem lowerUse_input (s : State) (q : Fin 32) (i0 : Fin 4) :
    (lowerUse s q).input i0 = s.input i0 := rfl
@[simp] theorem lowerUse_route (s : State) (q : Fin 32) (id0 : Fin 16) :
    (lowerUse s q).route id0 = s.route id0 := rfl

@[simp] theorem lowerUse_freeSlots (s : State) (q : Fin 32) :
    (lowerUse s q).store.freeSlots = s.store.freeSlots := rfl

@[simp] theorem releaseUse_timeBase (s : State) (b : Option Binding) :
    (releaseUse s b).timeBase = s.timeBase := by cases b <;> rfl
@[simp] theorem releaseUse_line (s : State) (b : Option Binding) :
    (releaseUse s b).line = s.line := by cases b <;> rfl
@[simp] theorem releaseUse_channels (s : State) (b : Option Binding) :
    (releaseUse s b).channels = s.channels := by cases b <;> rfl
@[simp] theorem releaseUse_capture (s : State) (b : Option Binding) :
    (releaseUse s b).capture = s.capture := by cases b <;> rfl
@[simp] theorem releaseUse_cutoff (s : State) (b : Option Binding) :
    (releaseUse s b).cutoff = s.cutoff := by cases b <;> rfl
@[simp] theorem releaseUse_link (s : State) (b : Option Binding) :
    (releaseUse s b).link = s.link := by cases b <;> rfl
@[simp] theorem releaseUse_session (s : State) (b : Option Binding) :
    (releaseUse s b).session = s.session := by cases b <;> rfl
@[simp] theorem releaseUse_startUp (s : State) (b : Option Binding) :
    (releaseUse s b).startUp = s.startUp := by cases b <;> rfl
@[simp] theorem releaseUse_pins (s : State) (b : Option Binding) :
    (releaseUse s b).pins = s.pins := by cases b <;> rfl
@[simp] theorem releaseUse_freeCount (s : State) (b : Option Binding) :
    (releaseUse s b).freeCount = s.freeCount := by cases b <;> rfl
@[simp] theorem releaseUse_pending (s : State) (b : Option Binding) :
    (releaseUse s b).pending = s.pending := by cases b <;> rfl

@[simp] theorem releaseUse_chan (s : State) (b : Option Binding) (c0 : Fin 8) :
    (releaseUse s b).chan c0 = s.chan c0 := by cases b <;> rfl
@[simp] theorem releaseUse_input (s : State) (b : Option Binding) (i0 : Fin 4) :
    (releaseUse s b).input i0 = s.input i0 := by cases b <;> rfl
@[simp] theorem releaseUse_route (s : State) (b : Option Binding) (id0 : Fin 16) :
    (releaseUse s b).route id0 = s.route id0 := by cases b <;> rfl

@[simp] theorem releaseUse_freeSlots (s : State) (b : Option Binding) :
    (releaseUse s b).store.freeSlots = s.store.freeSlots := by cases b <;> rfl

@[simp] theorem releaseUse_none (s : State) : releaseUse s none = s := rfl

@[simp] theorem raiseUse_state (s : State) (q r : Fin 32) :
    ((raiseUse s q).prog r).state = (s.prog r).state := by
  unfold raiseUse; rw [setProg_prog]; split <;> simp_all

@[simp] theorem raiseUse_steps (s : State) (q r : Fin 32) :
    ((raiseUse s q).prog r).steps = (s.prog r).steps := by
  unfold raiseUse; rw [setProg_prog]; split <;> simp_all

@[simp] theorem raiseUse_loopStart (s : State) (q r : Fin 32) :
    ((raiseUse s q).prog r).loopStart = (s.prog r).loopStart := by
  unfold raiseUse; rw [setProg_prog]; split <;> simp_all

@[simp] theorem raiseUse_loopCount (s : State) (q r : Fin 32) :
    ((raiseUse s q).prog r).loopCount = (s.prog r).loopCount := by
  unfold raiseUse; rw [setProg_prog]; split <;> simp_all

@[simp] theorem lowerUse_state (s : State) (q r : Fin 32) :
    ((lowerUse s q).prog r).state = (s.prog r).state := by
  unfold lowerUse; rw [setProg_prog]; split <;> simp_all

@[simp] theorem lowerUse_steps (s : State) (q r : Fin 32) :
    ((lowerUse s q).prog r).steps = (s.prog r).steps := by
  unfold lowerUse; rw [setProg_prog]; split <;> simp_all

@[simp] theorem lowerUse_loopStart (s : State) (q r : Fin 32) :
    ((lowerUse s q).prog r).loopStart = (s.prog r).loopStart := by
  unfold lowerUse; rw [setProg_prog]; split <;> simp_all

@[simp] theorem lowerUse_loopCount (s : State) (q r : Fin 32) :
    ((lowerUse s q).prog r).loopCount = (s.prog r).loopCount := by
  unfold lowerUse; rw [setProg_prog]; split <;> simp_all

@[simp] theorem releaseUse_state (s : State) (b : Option Binding) (r : Fin 32) :
    ((releaseUse s b).prog r).state = (s.prog r).state := by cases b <;> simp [releaseUse]

@[simp] theorem releaseUse_steps (s : State) (b : Option Binding) (r : Fin 32) :
    ((releaseUse s b).prog r).steps = (s.prog r).steps := by cases b <;> simp [releaseUse]

@[simp] theorem releaseUse_loopStart (s : State) (b : Option Binding) (r : Fin 32) :
    ((releaseUse s b).prog r).loopStart = (s.prog r).loopStart := by cases b <;> simp [releaseUse]

@[simp] theorem releaseUse_loopCount (s : State) (b : Option Binding) (r : Fin 32) :
    ((releaseUse s b).prog r).loopCount = (s.prog r).loopCount := by cases b <;> simp [releaseUse]

/-- A channel's record and a program's record are set in either order. -/
theorem setChan_setProg (s : State) (c : Fin 8) (ch : Channel) (q : Fin 32) (p : Program) :
    (s.setChan c ch).setProg q p = (s.setProg q p).setChan c ch := rfl

end Sys2Proof.Machine
end

