-- ==== Sys2Proof/Laws/Reports.lean ====
section
/-! SUPPORT. The judgement of a submission in one rule each (R165 to R167). -/

namespace Sys2Proof.Machine

/-! ## The session of a state -/

/-- The state with another session and report unit. -/
def State.withSession (s : State) (se : Session) : State := { s with session := se }

theorem withSession_eq (s : State) (se : Session) : { s with session := se } = s.withSession se :=
  rfl
@[simp] theorem withSession_session (s : State) (se : Session) :
    (s.withSession se).session = se := rfl
@[simp] theorem withSession_self (s : State) : s.withSession s.session = s := rfl
@[simp] theorem withSession_withSession (s : State) (a b : Session) :
    (s.withSession a).withSession b = s.withSession b := rfl
@[simp] theorem withSession_setChan (s : State) (se : Session) (c : Fin 8) (ch : Channel) :
    (s.withSession se).setChan c ch = (s.setChan c ch).withSession se := rfl
@[simp] theorem withSession_chan (s : State) (se : Session) (c : Fin 8) :
    (s.withSession se).chan c = s.chan c := rfl
@[simp] theorem withSession_prog (s : State) (se : Session) (q : Fin 32) :
    (s.withSession se).prog q = s.prog q := rfl
@[simp] theorem withSession_line (s : State) (se : Session) :
    (s.withSession se).line = s.line := rfl
@[simp] theorem withSession_link (s : State) (se : Session) :
    (s.withSession se).link = s.link := rfl
@[simp] theorem withSession_timeBase (s : State) (se : Session) :
    (s.withSession se).timeBase = s.timeBase := rfl
@[simp] theorem withSession_releaseUse (s : State) (se : Session) (b : Option Binding) :
    releaseUse (s.withSession se) b = (releaseUse s b).withSession se := by cases b <;> rfl
theorem submit_withSession (s : State) (b : ReportBody) :
    submit s b = s.withSession (s.session.submit b) := rfl
theorem setChan_releaseUse (s : State) (c : Fin 8) (ch : Channel) (b : Option Binding) :
    releaseUse (s.setChan c ch) b = (releaseUse s b).setChan c ch := by cases b <;> rfl

/-! ## Submission -/

/-- With no session a submission is discarded (R165 step 1). -/
theorem submit_of_closed {se : Session} {b : ReportBody} (h : se.state = .closed) :
    se.submit b = se := by simp [Session.submit, h]

/-- With a session a submission is judged when the mask lets its class through (R165 step 2). -/
theorem submit_of_opened {se : Session} {b : ReportBody} {m : ReportMask}
    (h : se.state = .opened) (hm : se.mask = some m) :
    se.submit b = if m.allows b.reportClass then se.judge b else se := by
  simp [Session.submit, h, hm]

/-- An entered report leaves everything but the queue and the next sequence (R164). -/
theorem enter_eq (se : Session) (b : ReportBody) :
    se.enter b =
      { se with
        reports := se.reports ++
          [{ sequence := se.nextSequence, body := b, session := se.number, state := .new }]
        nextSequence := se.nextSequence + 1 } := rfl

/-- A submission leaves the session's own fields: only the queue, the next sequence and the lost
counts move (R165). -/
theorem submit_eq (se : Session) (b : ReportBody) :
    se.submit b =
      { se with reports := (se.submit b).reports, nextSequence := (se.submit b).nextSequence
                lost := (se.submit b).lost } := by
  have hl : ∀ x : Session, x.lossCheck =
      { x with reports := x.lossCheck.reports, nextSequence := x.lossCheck.nextSequence
               lost := x.lossCheck.lost } := by
    intro x; unfold Session.lossCheck; split <;> rfl
  have ho : ∀ x : Session, x.submitOrdinary b =
      { x with reports := (x.submitOrdinary b).reports
               nextSequence := (x.submitOrdinary b).nextSequence
               lost := (x.submitOrdinary b).lost } := by
    intro x; unfold Session.submitOrdinary; dsimp only
    rw [hl x]; split <;> rfl
  have hj : se.judge b =
      { se with reports := (se.judge b).reports, nextSequence := (se.judge b).nextSequence
                lost := (se.judge b).lost } := by
    unfold Session.judge
    cases b with
    | missed r => dsimp only; split; · rfl
                  · exact ho se
    | _ => dsimp only; split; · unfold Session.submitUrgent; split <;> rfl
           · exact ho se
  unfold Session.submit
  split
  · split; · exact hj
    · rfl
  · rfl

@[simp] theorem submit_state (se : Session) (b : ReportBody) :
    (se.submit b).state = se.state := by rw [submit_eq]
@[simp] theorem submit_number (se : Session) (b : ReportBody) :
    (se.submit b).number = se.number := by rw [submit_eq]
@[simp] theorem submit_lastClose (se : Session) (b : ReportBody) :
    (se.submit b).lastClose = se.lastClose := by rw [submit_eq]
@[simp] theorem submit_silenceTimeout (se : Session) (b : ReportBody) :
    (se.submit b).silenceTimeout = se.silenceTimeout := by rw [submit_eq]
@[simp] theorem submit_resendTime (se : Session) (b : ReportBody) :
    (se.submit b).resendTime = se.resendTime := by rw [submit_eq]
@[simp] theorem submit_mask (se : Session) (b : ReportBody) :
    (se.submit b).mask = se.mask := by rw [submit_eq]
@[simp] theorem submit_silenceTimer (se : Session) (b : ReportBody) :
    (se.submit b).silenceTimer = se.silenceTimer := by rw [submit_eq]
@[simp] theorem submit_resendTimer (se : Session) (b : ReportBody) :
    (se.submit b).resendTimer = se.resendTimer := by rw [submit_eq]

@[simp] theorem submitAll_nil (se : Session) : submitAll [] se = se := rfl
@[simp] theorem submitAll_cons (b : ReportBody) (bs : List ReportBody) (se : Session) :
    submitAll (b :: bs) se = submitAll bs (se.submit b) := rfl
theorem submitAll_append (a b : List ReportBody) (se : Session) :
    submitAll (a ++ b) se = submitAll b (submitAll a se) := List.foldl_append

/-- Capture moves are not tried with streaming off (R125). -/
theorem moveCaptures_of_off (n : Nat) (time line : Word) (cap : Capture) (se : Session)
    (h : cap.streaming = false) : moveCaptures n time line cap se = (cap, se) := by
  cases n <;> simp [moveCaptures, h]

/-- With streaming off an attempt at moves changes nothing (R125). -/
theorem tryMoves_of_off {s : State} (h : s.capture.streaming = false) : tryMoves s = s := by
  simp [tryMoves, moveCaptures_of_off _ _ _ _ _ h]

end Sys2Proof.Machine
end

