-- ==== Sys2Proof/Laws/Capture.lean ====
section
/-! SUPPORT. How an accepted edge is delivered along the routes, offered to the watches and logged,
in one rule each (R117 to R120). -/

namespace Sys2Proof.Machine

/-! ## Deliveries along the routes -/

/-- What one route delivers to one channel (R117). -/
def routedTo (i : Fin 4) (e : Edge) (s : State) (c : Fin 8) (id : Fin 16) : List Trigger :=
  match s.route id with
  | some r =>
    if r.channel = c ∧ r.matchesEdge i e then
      [{ route := id, input := i, edge := e, stamp := stampNow s }]
    else []
  | none => []

/-- A route's delivery touches the channels only. -/
theorem deliverRoute_eq (i : Fin 4) (e : Edge) (s : State) (id : Fin 16) :
    deliverRoute i e s id = { s with channels := (deliverRoute i e s id).channels } := by
  unfold deliverRoute
  split
  · split <;> rfl
  · rfl

/-- A route's delivery adds to the triggers of its channel (R117). -/
theorem deliverRoute_chan (i : Fin 4) (e : Edge) (s : State) (id : Fin 16) (c : Fin 8) :
    (deliverRoute i e s id).chan c =
      { s.chan c with triggers := (s.chan c).triggers ++ routedTo i e s c id } := by
  unfold deliverRoute routedTo
  cases h : s.route id with
  | none => simp
  | some r =>
    simp only
    by_cases hm : r.matchesEdge i e = true
    · simp only [hm, if_true]
      by_cases hc : r.channel = c
      · subst hc; simp
      · rw [modChan_chan_ne _ _ fun h => hc h.symm]; simp [hc]
    · simp [hm]

/-- The deliveries of a run of routes, in order (R117). -/
theorem foldl_deliverRoute (i : Fin 4) (e : Edge) (ids : List (Fin 16)) (s : State) (c : Fin 8) :
    (ids.foldl (deliverRoute i e) s).chan c =
        { s.chan c with
          triggers := (s.chan c).triggers ++ ids.flatMap (routedTo i e s c) } ∧
      ids.foldl (deliverRoute i e) s =
        { s with channels := (ids.foldl (deliverRoute i e) s).channels } := by
  induction ids generalizing s with
  | nil => simp
  | cons id ids ih =>
    rw [List.foldl_cons]
    obtain ⟨h1, h2⟩ := ih (deliverRoute i e s id)
    have hr : routedTo i e (deliverRoute i e s id) c = routedTo i e s c := by
      rw [deliverRoute_eq]; rfl
    constructor
    · rw [h1, deliverRoute_chan, hr]; simp
    · have key : ∀ chs, ({ deliverRoute i e s id with channels := chs } : State) =
          { s with channels := chs } := by
        intro chs; rw [deliverRoute_eq i e s id]
      exact h2.trans (key _)

/-! ## Offers to the watches -/

/-- What is offered to one channel (R118). -/
def offeredTo (i : Fin 4) (e : Edge) (s : State) (c : Fin 8) : List Offer :=
  if ((s.chan c).firing.bind fun f => f.watch).any fun w => w.input == i then
    [{ input := i, edge := e, stamp := stampNow s }]
  else []

/-- An offer touches the channels only. -/
theorem offerEdge_eq (i : Fin 4) (e : Edge) (s : State) (c : Fin 8) :
    offerEdge i e s c = { s with channels := (offerEdge i e s c).channels } := by
  unfold offerEdge
  split
  · split <;> rfl
  · rfl

/-- An offer adds to the offers of its channel (R118). -/
theorem offerEdge_chan (i : Fin 4) (e : Edge) (s : State) (c d : Fin 8) :
    (offerEdge i e s c).chan d =
      { s.chan d with
        offers := (s.chan d).offers ++ if c = d then offeredTo i e s d else [] } := by
  unfold offerEdge offeredTo
  by_cases hcd : c = d
  · subst hcd
    cases (s.chan c).firing.bind fun f => f.watch with
    | none => simp
    | some w =>
      simp only [if_true, Option.any_some]
      by_cases hw : w.input = i <;> simp [hw]
  · simp only [hcd, if_false, List.append_nil]
    split
    · split
      · rw [modChan_chan_ne _ _ fun h => hcd h.symm]
      · rfl
    · rfl

/-- The offers to a run of channels (R118). -/
theorem foldl_offerEdge (i : Fin 4) (e : Edge) (cs : List (Fin 8)) (hn : cs.Nodup) (s : State)
    (d : Fin 8) :
    (cs.foldl (offerEdge i e) s).chan d =
        { s.chan d with
          offers := (s.chan d).offers ++ if d ∈ cs then offeredTo i e s d else [] } ∧
      cs.foldl (offerEdge i e) s =
        { s with channels := (cs.foldl (offerEdge i e) s).channels } := by
  induction cs generalizing s with
  | nil => simp
  | cons c cs ih =>
    rw [List.nodup_cons] at hn
    rw [List.foldl_cons]
    obtain ⟨h1, h2⟩ := ih hn.2 (offerEdge i e s c)
    have ho : offeredTo i e (offerEdge i e s c) d = offeredTo i e s d := by
      have hf : ((offerEdge i e s c).chan d).firing = (s.chan d).firing := by rw [offerEdge_chan]
      have hst : stampNow (offerEdge i e s c) = stampNow s := by rw [offerEdge_eq]; rfl
      unfold offeredTo
      rw [hf, hst]
    constructor
    · rw [h1, ho, offerEdge_chan]
      by_cases hcd : c = d
      · subst hcd; simp [hn.1]
      · have hdc : d ≠ c := fun h => hcd h.symm
        simp [hcd, hdc]
    · have key : ∀ chs, ({ offerEdge i e s c with channels := chs } : State) =
          { s with channels := chs } := by
        intro chs; rw [offerEdge_eq i e s c]
      exact h2.trans (key _)

/-! ## The log -/

/-- Logging touches the capture unit and the session only. -/
theorem logEvent_eq (s : State) (i : Fin 4) (l : Logged) :
    logEvent s i l =
      { s with capture := (logEvent s i l).capture, session := (logEvent s i l).session } := by
  unfold logEvent
  dsimp only
  split <;> rfl

/-- Moves keep the inputs and the routes (R125). -/
theorem moveCaptures_keeps (n : Nat) (t l : Word) (cap : Capture) (se : Session) :
    (moveCaptures n t l cap se).1.inputs = cap.inputs ∧
      (moveCaptures n t l cap se).1.routes = cap.routes := by
  induction n generalizing cap se with
  | zero => simp [moveCaptures]
  | succ n ih =>
    unfold moveCaptures
    split
    · split
      · simp
      · dsimp only
        split
        · rename_i rest _ _
          simp only [ih (Capture.appendGap { cap with log := rest } t l)]
          unfold Capture.appendGap
          split <;> simp
        · simp
    · simp

/-- A logged event keeps the inputs and the routes (R119). -/
theorem record_keeps (cap : Capture) (i : Fin 4) (l : Logged) (t w : Word) :
    (cap.record i l t w).inputs = cap.inputs ∧ (cap.record i l t w).routes = cap.routes := by
  unfold Capture.record
  split <;> simp

/-- Logging keeps the inputs and the routes. -/
theorem logEvent_keeps (s : State) (i : Fin 4) (l : Logged) :
    (logEvent s i l).capture.inputs = s.capture.inputs ∧
      (logEvent s i l).capture.routes = s.capture.routes := by
  unfold logEvent
  dsimp only
  split
  · exact record_keeps _ _ _ _ _
  · simp only [tryMoves]
    have hm := moveCaptures_keeps Config.reportQueueSize s.timeBase s.line.lineBase
      (s.capture.record i l s.timeBase s.line.lineBase) s.session
    have hr := record_keeps s.capture i l s.timeBase s.line.lineBase
    exact ⟨hm.1.trans hr.1, hm.2.trans hr.2⟩

end Sys2Proof.Machine
end

