-- ==== Sys2Proof/Laws/Engine.lean ====
section
/-! SUPPORT. The shared operations of a channel engine in one rule each: losses, starts, ends,
forcing (chapters 2 to 4, 7). -/

namespace Sys2Proof.Machine

/-! ## Losses -/

theorem loseEntry_eq (c : Fin 8) (cause : MissedCause) (s : State) (x : Entry) :
    loseEntry c cause s x =
      { s.setChan c { s.chan c with missed := (s.chan c).missed + 1 } with
        session := submitAll (lostReports c cause [x]) s.session } := rfl

/-- Entries lost one after another: each counts 1 and submits its own MISSED (R45, R71). -/
theorem foldl_loseEntry (c : Fin 8) (cause : MissedCause) (entries : List Entry) (s : State) :
    entries.foldl (loseEntry c cause) s =
      (s.setChan c { s.chan c with
          missed := (s.chan c).missed + BitVec.ofNat 16 entries.length }).withSession
        (submitAll (lostReports c cause entries) s.session) := by
  induction entries generalizing s with
  | nil =>
    have : ({ s.chan c with missed := (s.chan c).missed + BitVec.ofNat 16 0 } : Channel) =
        s.chan c := by simp only [BitVec.add_zero]
    rw [List.foldl_nil, List.length_nil, this, setChan_self]
    rfl
  | cons x rest ih =>
    rw [List.foldl_cons, ih, loseEntry_eq, withSession_eq, withSession_chan, withSession_setChan,
      setChan_chan_same, setChan_setChan, withSession_session, withSession_withSession]
    have hn : (s.chan c).missed + 1 + BitVec.ofNat 16 rest.length =
        (s.chan c).missed + BitVec.ofNat 16 (x :: rest).length := by
      rw [BitVec.add_assoc]; congr 1
      apply BitVec.eq_of_toNat_eq; simp; omega
    rw [← hn]
    rfl

/-- A list splits into the head run that satisfies `p` and the rest in one way. -/
theorem takeWhile_dropWhile_of_split {α : Type} {p : α → Bool} {queue lost kept : List α}
    (hq : queue = lost ++ kept) (hl : ∀ x ∈ lost, p x = true) (hk : ∀ x ∈ kept.head?, p x = false) :
    queue.takeWhile p = lost ∧ queue.dropWhile p = kept := by
  subst hq
  induction lost with
  | nil =>
    cases kept with
    | nil => simp
    | cons y ys =>
      have := hk y (by simp)
      simp [this]
  | cons x xs ih =>
    have hx := hl x (by simp)
    have := ih fun y hy => hl y (by simp [hy])
    simp [hx, this]

/-- The head entries that satisfy `p` are discarded one after another, up to the first that does
not (R52, R60, R63). -/
theorem dropHeads_of_split {s : State} {c : Fin 8} {cause : MissedCause} {p : Entry → Bool}
    {lost kept : List Entry} (hq : (s.chan c).queue = lost ++ kept)
    (hl : ∀ x ∈ lost, p x = true) (hk : ∀ x ∈ kept.head?, p x = false) :
    dropHeads s c cause p =
      (s.setChan c { s.chan c with
          queue := kept
          missed := (s.chan c).missed + BitVec.ofNat 16 lost.length }).withSession
        (submitAll (lostReports c cause lost) s.session) := by
  obtain ⟨ht, hd⟩ := takeWhile_dropWhile_of_split hq hl hk
  unfold dropHeads
  simp only [ht, hd, foldl_loseEntry, modChan_eq, setChan_chan_same, setChan_setChan]
  rfl

/-- A flush empties the queue, counts its entries and tells of them in one MISSED (R66). -/
theorem flushQueue_eq (s : State) (c : Fin 8) (cause : MissedCause) :
    flushQueue s c cause =
      (s.setChan c { s.chan c with
          queue := []
          missed := (s.chan c).missed + BitVec.ofNat 16 (s.chan c).queue.length }).withSession
        (submitAll (flushReports c (s.chan c) cause) s.session) := by
  unfold flushQueue flushReports
  cases h : (s.chan c).queue.getLast? with
  | none =>
    have hq : (s.chan c).queue = [] := List.getLast?_eq_none_iff.mp h
    have : ({ s.chan c with
        queue := [], missed := (s.chan c).missed + BitVec.ofNat 16 (s.chan c).queue.length } :
        Channel) = s.chan c := by
      rw [hq, List.length_nil, BitVec.add_zero, ← hq]
    rw [this, setChan_self]
    rfl
  | some x =>
    simp only [submitMissed, modChan_eq, setChan_chan_same, setChan_setChan]
    rfl

/-! ## Starts -/

/-- The step at an index below the step count (R1). -/
theorem stepAt_of_getElem? {p : Program} {i : Nat} {st : ProgStep} (h : p.steps[i]? = some st) :
    stepAt p i = st := by
  simp [stepAt, List.getD, h]

theorem resolveLevel_eq (b : Binding) (l : StepLevel) : resolveLevel b l = stepLevel b.idle l := by
  cases l <;> cases h : b.idle <;> simp [resolveLevel, stepLevel, oppositeLevel, h]

/-- A step that begins is the running step, with its end point, watch and level (R22, R32, R36). -/
theorem beginStep_of_step {s : State} {c : Fin 8} {b : Binding} {f : Firing} {i : Nat} {p : Word}
    {st : ProgStep} (h : (s.prog b.program).steps[i]? = some st) :
    beginStep s c b f i p = s.setChan c (runsStep b.idle f i st p (s.chan c)) := by
  unfold beginStep
  simp only [stepAt_of_getElem? h, modChan_eq, resolveLevel_eq]
  rfl

theorem newFiring_eq (b : Binding) (s : State) (x : Option Entry) (p : Word) :
    newFiring b s x p = startedAt x (s.prog b.program).loopCount p := rfl

/-- A firing that starts runs step 0 from its start point (R30). -/
theorem startFiring_of_steps {s : State} {c : Fin 8} {b : Binding} {x : Entry} {p : Word}
    {st : ProgStep} {more : List ProgStep} (h : (s.prog b.program).steps = st :: more) :
    startFiring s c b x p =
      s.setChan c (runsStep b.idle (startedAt (some x) (s.prog b.program).loopCount p) 0 st p
        { s.chan c with
          state := if (s.chan c).state = .draining then .draining else .running }) := by
  unfold startFiring
  rw [beginStep_of_step (st := st) (by simp [h])]
  simp only [modChan_eq, setChan_chan_same, setChan_setChan, newFiring_eq]

/-- A CONTINUOUS pass that starts runs step 0 from its start point (R31). -/
theorem startPass_of_steps {s : State} {c : Fin 8} {b : Binding} {p : Word}
    {st : ProgStep} {more : List ProgStep} (h : (s.prog b.program).steps = st :: more) :
    startPass s c b p =
      s.setChan c (runsStep b.idle (startedAt none (s.prog b.program).loopCount p) 0 st p
        (s.chan c)) := by
  unfold startPass
  rw [beginStep_of_step (st := st) (by simp [h]), newFiring_eq]

/-! ## Ends -/

/-- The pending binding that becomes active (R78). -/
theorem applyPending_of_pending {s : State} {c : Fin 8} {b : Binding}
    (h : (s.chan c).pending = some b) :
    applyPending s c =
      ((releaseUse s (s.chan c).active).setChan c
          { s.chan c with active := some b, pending := none }).withSession
        (s.session.submit (.bindingApplied c b.program)) := by
  unfold applyPending
  simp [h, modChan_eq, submit_withSession]

theorem applyPending_of_none {s : State} {c : Fin 8} (h : (s.chan c).pending = none) :
    applyPending s c = s := by
  simp [applyPending, h]

/-- A pending binding that is discarded (R81). -/
theorem discardPending_eq (s : State) (c : Fin 8) :
    discardPending s c =
      (releaseUse s (s.chan c).pending).setChan c { s.chan c with pending := none } := by
  simp [discardPending, modChan_eq]

/-- A firing that ends leaves the channel at rest, moves its counter and is told of (R34, R42,
R45). -/
theorem endFiring_of_entry {s : State} {c : Fin 8} {f : Firing} {e : Word} {o : FiringOutcome}
    (hf : (s.chan c).firing = some f) (hx : f.entry ≠ none) :
    endFiring s c f e o =
      (s.setChan c { (s.chan c).ended o with output := (s.chan c).idleLevel }).withSession
        (submitAll (endReports c (s.chan c) e o) s.session) := by
  unfold endFiring endReports
  cases hx' : f.entry with
  | none => exact absurd hx' hx
  | some x =>
    simp only [hf, clearFiring, modChan_eq, setChan_chan_same, setChan_setChan, submit, hx']
    cases o <;> rfl

/-- The firing or pass in progress is ended by HALT or the cutoff (R27, R132): the level it leaves
the output at is overwritten by both. -/
theorem abortFiring_eq (s : State) (c : Fin 8) (o : FiringOutcome) (ho : o ≠ .complete) :
    ∃ level, abortFiring s c o =
      (s.setChan c
          { s.chan c with
            firing := none, output := level
            aborted := if ((s.chan c).firing.bind Firing.entry).isSome then
                         (s.chan c).aborted + 1 else (s.chan c).aborted }).withSession
        (submitAll (endReports c (s.chan c) (chanNow s c) o) s.session) := by
  unfold abortFiring
  cases hf : (s.chan c).firing with
  | none =>
    refine ⟨(s.chan c).output, ?_⟩
    have : ({ s.chan c with
        firing := none, output := (s.chan c).output
        aborted := if ((none : Option Firing).bind Firing.entry).isSome then
                     (s.chan c).aborted + 1 else (s.chan c).aborted } : Channel) = s.chan c := by
      simp only [Option.bind_none, Option.isSome_none, Bool.false_eq_true, if_false]
      rw [← hf]
    rw [this, setChan_self]
    simp [endReports, hf]
  | some f =>
    refine ⟨(s.chan c).idleLevel, ?_⟩
    cases hx : f.entry with
    | none =>
      simp only [endFiring, hx, endReports, hf, clearFiring, modChan_eq, Option.bind_some,
        Option.isSome_none, Bool.false_eq_true, if_false]
      rfl
    | some x =>
      simp only
      rw [endFiring_of_entry hf (by simp [hx])]
      simp only [Channel.ended, if_neg ho, Option.bind_some, hx]
      rfl

/-- What is left of a channel whose work HALT or the cutoff has ended (R27, R132). -/
theorem endedWork_eq (s : State) (c : Fin 8) (o : FiringOutcome) (cause : MissedCause)
    (ho : o ≠ .complete) (state : ChanState) (g : Channel → Level)
    (hg : ∀ ch ch' : Channel, ch.active = ch'.active → ch.safeLevel = ch'.safeLevel →
      g ch = g ch') :
    ((discardPending (flushQueue (abortFiring s c o) c cause) c).modChan c fun ch =>
        { ch with output := g ch, state := state }) =
      ((releaseUse s (s.chan c).pending).setChan c
          ((s.chan c).stopped state (g (s.chan c)))).withSession
        (submitAll (endReports c (s.chan c) (chanNow s c) o ++
          flushReports c (s.chan c) cause) s.session) := by
  obtain ⟨level, ha⟩ := abortFiring_eq s c o ho
  rw [ha, flushQueue_eq, discardPending_eq]
  simp only [modChan_eq, withSession_chan, withSession_setChan, withSession_releaseUse,
    setChan_releaseUse, setChan_chan_same, setChan_setChan, submitAll_append,
    withSession_session, withSession_withSession]
  congr 2
  simp only [Channel.stopped]
  congr 1
  exact hg _ _ rfl rfl

/-- HALT of a channel in service (R27). -/
theorem haltChannel_eq (s : State) (c : Fin 8) :
    haltChannel s c =
      ((releaseUse s (s.chan c).pending).setChan c
          ((s.chan c).stopped .off (s.chan c).idleLevel)).withSession
        (submitAll (endReports c (s.chan c) (chanNow s c) .abortedHalt ++
          flushReports c (s.chan c) .halted) s.session) :=
  endedWork_eq s c .abortedHalt .halted (by decide) .off Channel.idleLevel
    (fun ch ch' h _ => by unfold Channel.idleLevel; rw [h])

/-- The forcing of a member channel (R132). -/
theorem forceChannel_eq (s : State) (c : Fin 8) :
    forceChannel s c =
      ((releaseUse s (s.chan c).pending).setChan c
          ((s.chan c).stopped .forced (s.chan c).safeLevel)).withSession
        (submitAll (endReports c (s.chan c) (chanNow s c) .abortedCutoff ++
          flushReports c (s.chan c) .cutoff) s.session) :=
  endedWork_eq s c .abortedCutoff .cutoff (by decide) .forced Channel.safeLevel
    (fun _ _ _ h => h)

end Sys2Proof.Machine
end

