-- ==== Sys2Proof/Laws/Channels.lean ====
section
/-! SUPPORT. The happenings of a channel in one rule each (chapters 2 to 4). -/

namespace Sys2Proof.Machine

/-- The edge a running step watches, offered not before the step began, ends it at its point
(R36). -/
theorem edgeEndsStep_of_watch {ch : Channel} {o : Offer} {b : Binding} {f : Firing}
    (ha : ch.active = some b) (hf : ch.firing = some f) (hi : ch.inService = true)
    (hw : f.watch = some { input := o.input, edge := o.edge })
    (hp : atOrAfter (pointOfStamp ch o.stamp) f.stepStart = true) :
    edgeEndsStep ch o = some (b, f, pointOfStamp ch o.stamp) := by
  simp [edgeEndsStep, ha, hf, hi, hw, hp]

/-- An offered edge ends no step where nothing runs, no watch is armed, the watch names another input
or kind, or the edge is stamped before the step began (R36, R37; log 13). -/
theorem edgeEndsStep_of_other {ch : Channel} {o : Offer}
    (h : ch.inService = false ∨ ch.firing = none ∨
      ∃ f, ch.firing = some f ∧
        (f.watch = none ∨ (∃ w, f.watch = some w ∧ (w.input ≠ o.input ∨ w.edge ≠ o.edge)) ∨
          atOrAfter (pointOfStamp ch o.stamp) f.stepStart = false)) :
    edgeEndsStep ch o = none := by
  unfold edgeEndsStep
  split
  · rename_i b f _ hf
    rcases h with h | h | ⟨f', hf', h⟩
    · simp [h]
    · simp [h] at hf
    · obtain rfl : f' = f := by simpa [hf] using hf'.symm
      rcases h with h | ⟨⟨i, e⟩, h, hw⟩ | h
      · simp [h]
      · have : ¬ (i = o.input ∧ e = o.edge) := fun g => hw.elim (· g.1) (· g.2)
        simp [h, this]
      · simp [h]
  · rfl

/-- Whatever ends a running step, the program goes on at the end point (R32, R36, R37). -/
theorem exec_of_endsStep {i : Instr} {s : State} {c : Fin 8} {b : Binding} {f : Firing} {e : Word}
    {s1 : State} (h : EndsStep i s c b f e s1) :
    exec i s = .next (arbitrate (endStep s1 c b f e)) := by
  obtain ⟨ha, hf, hi, h⟩ := h
  rcases h with ⟨rfl, hw, hd, rfl, rfl⟩ | ⟨rfl, hw, hd, rfl, rfl⟩ |
    ⟨rfl, o, rest, ho, hw, he, hd, rfl⟩
  · simp [exec, execStepEnd, stepEndReached, ha, hf, hi, hd, hw]
  · obtain ⟨w, hw⟩ := Option.ne_none_iff_exists'.mp hw
    simp [exec, execHoldUntilTimeout, stepEndReached, ha, hf, hi, hd, hw]
  · subst he
    have := edgeEndsStep_of_watch (ch := { s.chan c with offers := rest }) ha hf hi hw hd
    simp only [exec, execHoldUntilEdge, ho, takeOffer, modChan_eq, setChan_chan_same, this]
    rfl

/-- Ending a step keeps the channel's binding, firing and state, and every program. -/
theorem keeps_of_endsStep {i : Instr} {s : State} {c : Fin 8} {b : Binding} {f : Firing} {e : Word}
    {s1 : State} (h : EndsStep i s c b f e s1) :
    (s1.chan c).active = some b ∧ (s1.chan c).firing = some f ∧
      (s1.chan c).state = (s.chan c).state ∧ (∀ q, s1.prog q = s.prog q) := by
  obtain ⟨ha, hf, hi, h⟩ := h
  rcases h with ⟨-, -, -, -, rfl⟩ | ⟨-, -, -, -, rfl⟩ | ⟨-, o, rest, -, -, -, -, rfl⟩
  · exact ⟨ha, hf, rfl, fun _ => rfl⟩
  · exact ⟨ha, hf, rfl, fun _ => rfl⟩
  · rw [setChan_chan_same]
    exact ⟨ha, hf, rfl, fun _ => rfl⟩

/-- A step below the last hands over to the next (R32). -/
theorem endStep_of_next {s : State} {c : Fin 8} {b : Binding} {f : Firing} {e : Word}
    {st : ProgStep} (h : (s.prog b.program).steps[f.stepIndex + 1]? = some st) :
    endStep s c b f e = s.setChan c (runsStep b.idle f (f.stepIndex + 1) st e (s.chan c)) := by
  have : f.stepIndex + 1 < (s.prog b.program).steps.length := (List.getElem?_eq_some_iff.mp h).1
  simp only [endStep, this, if_true]
  exact beginStep_of_step h

/-- Past the last step with a run of the loop left the loop start is next (R33). -/
theorem endStep_of_jump {s : State} {c : Fin 8} {b : Binding} {f : Firing} {e : Word} {n : Half}
    (hl : (s.prog b.program).steps.length ≤ f.stepIndex + 1)
    (hn : ((s.prog b.program).loopCount = 0 ∧ n = f.loopRuns) ∨
      ((s.prog b.program).loopCount ≠ 0 ∧ f.loopRuns ≠ 0 ∧ n = f.loopRuns - 1)) :
    endStep s c b f e = jumpToLoop s c b { f with loopRuns := n } e := by
  have : ¬ f.stepIndex + 1 < (s.prog b.program).steps.length := by omega
  simp only [endStep, this, if_false]
  rcases hn with ⟨h0, rfl⟩ | ⟨h0, h1, rfl⟩
  · simp only [h0, if_true]
  · simp only [h0, if_false, h1, ne_eq, not_false_eq_true, if_true]

/-- Past the last step with no run of the loop left the firing or the pass ends its course (R34,
R35). -/
theorem endStep_of_last {s : State} {c : Fin 8} {b : Binding} {f : Firing} {e : Word}
    (hl : (s.prog b.program).steps.length ≤ f.stepIndex + 1)
    (h0 : (s.prog b.program).loopCount ≠ 0) (h1 : f.loopRuns = 0) :
    (b.mode = .triggered →
      endStep s c b f e = examineEnd (endFiring s c f e .complete) c e) ∧
    (b.mode = .continuous → endStep s c b f e = wrapPoint s c b f none e) := by
  have : ¬ f.stepIndex + 1 < (s.prog b.program).steps.length := by omega
  constructor <;>
  · intro hm
    simp only [endStep, this, if_false, h0, h1, ne_eq, not_true_eq_false, hm]

end Sys2Proof.Machine
end

