-- ==== Sys2Proof/Laws/Entries.lean ====
section
/-! SUPPORT. The creation of an entry in one rule (R50, R51, R54, R57, R59 to R61). -/

namespace Sys2Proof.Machine

/-- Entries at the head and due points do not move the channel's now. -/
theorem chanNow_setChan_of_base {s : State} {c : Fin 8} {ch : Channel}
    (ha : ch.active = (s.chan c).active) (hp : ch.presetsTaken = (s.chan c).presetsTaken)
    (hc : ch.coords = (s.chan c).coords) : chanNow (s.setChan c ch) c = chanNow s c := by
  show pointOfStamp ((s.setChan c ch).chan c) (stampNow s) = pointOfStamp (s.chan c) (stampNow s)
  rw [setChan_chan_same]
  unfold pointOfStamp Channel.lineBound lineInCoords
  rw [ha, hp, hc]

/-- With a firing in progress the due entries at the head are held under DEFER, and discarded as BUSY
under DROP (R60). -/
theorem dueWhileRunning_of_split {s : State} {c : Fin 8} {b : Binding} {lost kept : List Entry}
    (hq : (s.chan c).queue = lost ++ kept)
    (hl : ∀ x ∈ lost, atOrAfter (chanNow s c) x.due = true)
    (hk : ∀ x ∈ kept.head?, atOrAfter (chanNow s c) x.due = false) :
    (b.overlap = .defer → dueWhileRunning s c b = s) ∧
      (b.overlap = .drop → dueWhileRunning s c b =
        (s.setChan c { s.chan c with
            queue := kept
            missed := (s.chan c).missed + BitVec.ofNat 16 lost.length }).withSession
          (submitAll (lostReports c .busy lost) s.session)) := by
  unfold dueWhileRunning
  refine ⟨fun h => by simp only [h], fun h => ?_⟩
  simp only [h]
  exact dropHeads_of_split hq hl hk

/-- An entry that is created takes its place, and at the head with its due point reached it is
handled at once (R50, R51, R54, R57, R59 to R61). -/
theorem entryCreated_createEntry {s : State} {c : Fin 8} {b : Binding} {entry : Entry}
    (ha : (s.chan c).active = some b) (hn : entry.number = (s.chan c).nextNumber) :
    EntryCreated s c b entry (createEntry s c entry.source entry.trigger entry.due) := by
  intro now queue ch hnow hqueue hch
  have hact : ch.active = some b := by rw [hch, ← ha]
  have hch2 : ch.queue = queue := by rw [hch]
  have hbase : ∀ v : Channel, v.active = ch.active → v.presetsTaken = ch.presetsTaken →
      v.coords = ch.coords → chanNow (s.setChan c v) c = now := by
    intro v h1 h2 h3
    rw [hnow]
    exact chanNow_setChan_of_base (by rw [h1, hch]) (by rw [h2, hch]) (by rw [h3, hch])
  have hcreate : createEntry s c entry.source entry.trigger entry.due =
      if queue.head? = some entry then handleDue (s.setChan c ch) c else s.setChan c ch := by
    unfold createEntry
    simp only [modChan_eq, setChan_chan_same, ← hn]
    rw [hch, hqueue, hnow, ← hn]
  rw [hcreate]
  refine ⟨?_, ?_⟩
  · intro h
    split
    · rename_i hh
      cases hq : queue with
      | nil => simp [hq] at hh
      | cons y ys =>
        have hy : y = entry := by simpa [hq] using hh
        have hd : atOrAfter now y.due = false := by
          rw [hy]; simpa [hh] using h
        unfold handleDue
        simp [hact, hch2, hq, hbase ch rfl rfl rfl, hd]
    · rfl
  · intro rest hq hd
    simp only [hq, List.head?_cons, if_true]
    have hdue : ∀ f, ch.firing = some f → ch.inService = true →
        handleDue (s.setChan c ch) c = dueWhileRunning (s.setChan c ch) c b := by
      intro f hf hi
      unfold handleDue
      simp [hact, hch2, hq, hbase ch rfl rfl rfl, hd, hf, hi]
    refine ⟨?_, ?_, ?_⟩
    · intro hf ho
      obtain ⟨f, hf⟩ := Option.ne_none_iff_exists'.mp hf
      unfold handleDue
      simp only [setChan_chan_same, hact, hch2, hq, hbase ch rfl rfl rfl, hd, if_true, hf]
      split
      · unfold dueWhileRunning
        simp only [ho]
      · rfl
    · intro lost kept hf hs ho hrest hl hk
      obtain ⟨f, hf⟩ := Option.ne_none_iff_exists'.mp hf
      rw [hdue f hf (by simp [Channel.inService, hs])]
      rw [(dueWhileRunning_of_split (b := b) (lost := entry :: lost) (kept := kept)
        (by simp [hch2, hq, hrest])
        (by
          rw [hbase ch rfl rfl rfl]
          intro x hx
          rcases List.mem_cons.mp hx with rfl | hx
          · exact hd
          · exact hl x hx)
        (by rw [hbase ch rfl rfl rfl]; exact hk)).2 ho]
      simp only [setChan_chan_same, setChan_setChan, List.length_cons]
      rfl
    · intro st more started hf hs hsteps hst
      have hgo : handleDue (s.setChan c ch) c = dueWhileRunning (s.setChan c started) c b := by
        unfold handleDue
        simp only [setChan_chan_same, hact, hch2, hq, hbase ch rfl rfl rfl, hd, if_true, hf, hs,
          true_or]
        rw [startFiring_of_steps (st := st) (more := more) (by simpa using hsteps)]
        simp only [modChan_eq, setChan_chan_same, setChan_setChan, setChan_prog, hst,
          if_neg (show ¬ ch.state = .draining by simp [hs])]
      rw [hgo]
      have hb : chanNow (s.setChan c started) c = now := hbase _ (by rw [hst]; rfl)
        (by rw [hst]; rfl) (by rw [hst]; rfl)
      refine ⟨fun ho => ?_, fun lost kept ho hrest hl hk => ?_⟩
      · unfold dueWhileRunning
        simp only [ho]
      · rw [(dueWhileRunning_of_split (b := b) (lost := lost) (kept := kept)
          (by rw [setChan_chan_same, hst, ← hrest]; rfl) (by rw [hb]; exact hl)
          (by rw [hb]; exact hk)).2 ho]
        simp only [setChan_chan_same, setChan_setChan]
        rw [hst]
        rfl

end Sys2Proof.Machine
end

