-- ==== Sys2Proof/Laws/Examination.lean ====
section
/-! SUPPORT. The firing-end examination in one rule (R34, R62, R63, R78). -/

namespace Sys2Proof.Machine

/-- The examination's test of a head entry, in the words of its rule (R63). -/
theorem tooLate_iff (b : Binding) (e : Word) (x : Entry) :
    tooLate b e x = true ↔ OverdueAt b e x := by
  unfold tooLate OverdueAt
  cases b.overlap <;> simp

/-- The BINDING_APPLIED of an examination, if a binding is pending (R78). -/
def appliedReports (c : Fin 8) (p : Option Binding) : List ReportBody :=
  match p with
  | none => []
  | some p => [.bindingApplied c p.program]

/-- The firing has ended and the pending binding, if any, has become active: the first step of the
examination (R34, R62, R78). -/
theorem applyPending_endFiring {s : State} {c : Fin 8} {b b1 : Binding} {f : Firing} {e : Word}
    {o : FiringOutcome} (ha : (s.chan c).active = some b) (hf : (s.chan c).firing = some f)
    (hx : f.entry ≠ none) (hb : b1 = (s.chan c).pending.getD b) :
    applyPending (endFiring s c f e o) c =
      (({ s with store := (if (s.chan c).pending.isSome then lowerUse s b.program
                           else s).store } : State).setChan c
        { (s.chan c).ended o with
          active := some b1, pending := none, output := (s.chan c).idleLevel }).withSession
        (submitAll (endReports c (s.chan c) e o ++ appliedReports c (s.chan c).pending)
          s.session) := by
  rw [endFiring_of_entry hf hx]
  subst hb
  cases hp : (s.chan c).pending with
  | none =>
    rw [applyPending_of_none (by simp [Channel.ended, hp])]
    have hc : ({ (s.chan c).ended o with output := (s.chan c).idleLevel } : Channel) =
        { (s.chan c).ended o with
          active := some b, pending := none, output := (s.chan c).idleLevel } := by
      simp only [Channel.ended, ha, hp]
    rw [hc]
    simp only [appliedReports, List.append_nil]
    rfl
  | some p =>
    rw [applyPending_of_pending (b := p) (by simp [Channel.ended, hp])]
    have hc : (((s.setChan c { (s.chan c).ended o with
        output := (s.chan c).idleLevel }).withSession
          (submitAll (endReports c (s.chan c) e o) s.session)).chan c).active = some b := by
      simp [Channel.ended, ha]
    rw [hc]
    simp only [withSession_chan, setChan_chan_same, withSession_releaseUse, setChan_releaseUse,
      withSession_setChan, setChan_setChan, withSession_session, withSession_withSession,
      appliedReports, submitAll_append]
    rfl

/-- A firing that ends is examined as its rules say (R34, R62, R63). -/
theorem firingEnds_examineEnd {s : State} {c : Fin 8} {b : Binding} {f : Firing} {e : Word}
    {o : FiringOutcome} (ha : (s.chan c).active = some b) (hf : (s.chan c).firing = some f)
    (hx : f.entry ≠ none) :
    FiringEnds s c b e o (examineEnd (endFiring s c f e o) c e) := by
  intro b1 lost kept hb1 hq hl hk ch store reports hch hst hrep
  have h1 := applyPending_endFiring (e := e) (o := o) ha hf hx hb1
  rw [← hst] at h1
  have hprog : ∀ q, (({ s with store := store } : State).prog q).steps = (s.prog q).steps ∧
      (({ s with store := store } : State).prog q).loopCount = (s.prog q).loopCount := by
    intro q
    subst hst
    cases (s.chan c).pending.isSome
    · simp [State.prog]
    · show ((lowerUse s b.program).prog q).steps = _ ∧
        ((lowerUse s b.program).prog q).loopCount = _
      simp
  generalize hS : ({ s with store := store } : State) = S at h1 hprog
  have h2 : examineEnd (endFiring s c f e o) c e =
      examineQueue (applyPending (endFiring s c f e o) c) c b1 e := by
    unfold examineEnd
    rw [h1]
    simp only [withSession_chan, setChan_chan_same]
  obtain ⟨c0, hc0⟩ : ∃ c0 : Channel, c0 = { ch with output := (s.chan c).idleLevel } := ⟨_, rfl⟩
  have h3 : dropHeads (applyPending (endFiring s c f e o) c) c .late (tooLate b1 e) =
      (S.setChan c c0).withSession (submitAll reports s.session) := by
    have hk' : ∀ x ∈ kept.head?, tooLate b1 e x = false := by
      intro x hx
      have h := hk x hx
      rw [← tooLate_iff] at h
      simpa using h
    rw [h1, dropHeads_of_split (lost := lost) (kept := kept) (by simp [Channel.ended, hq])
      (fun x hx => (tooLate_iff _ _ _).mpr (hl x hx)) hk']
    simp only [withSession_chan, setChan_chan_same, withSession_setChan, setChan_setChan,
      withSession_session, withSession_withSession]
    rw [hrep, submitAll_append _ (lostReports _ _ _), hc0, hch]
    simp only [Channel.ended]
    rfl
  have hq0 : c0.queue = kept := by rw [hc0, hch]
  have ha0 : c0.active = some b1 := by rw [hc0, hch]
  have hs0 : c0.state = ch.state := by rw [hc0]
  have hi0 : c0.idleLevel = b1.idle := by simp [Channel.idleLevel, ha0]
  have h5 : examineEnd (endFiring s c f e o) c e =
      match kept with
      | [] => restAfterFiring ((S.setChan c c0).withSession (submitAll reports s.session)) c
      | x :: rest =>
        if atOrAfter e x.due then
          startFiring
            ((S.setChan c { c0 with queue := rest }).withSession (submitAll reports s.session))
            c b1 x e
        else restAfterFiring ((S.setChan c c0).withSession (submitAll reports s.session)) c := by
    rw [h2]
    unfold examineQueue
    rw [h3]
    simp only [withSession_chan, setChan_chan_same, hq0]
    cases kept with
    | nil => rfl
    | cons x rest =>
      simp only [modChan_eq, withSession_chan, setChan_chan_same, withSession_setChan,
        setChan_setChan]
  rw [h5]
  refine ⟨?_, ?_, ?_⟩
  · rintro x rest st more rfl hd hsteps
    simp only [hd, if_true]
    rw [startFiring_of_steps (st := st) (more := more)
      (by simpa using (hprog _).1.trans hsteps)]
    simp only [withSession_chan, setChan_chan_same, withSession_setChan, setChan_setChan,
      withSession_prog, setChan_prog, (hprog _).2]
    subst hS hc0
    rfl
  · rintro rfl hd
    simp only [restAfterFiring, withSession_chan, setChan_chan_same, hs0, hd, hq0, and_self,
      if_true]
    simp only [leaveService, submit_withSession, modChan_eq, withSession_chan, setChan_chan_same,
      withSession_setChan, setChan_setChan, withSession_session, withSession_withSession,
      submitAll_append, submitAll_cons, submitAll_nil]
    rw [hi0]
    subst hS hc0
    rfl
  · intro hd hnd
    have h6 : examineEnd (endFiring s c f e o) c e =
        restAfterFiring ((S.setChan c c0).withSession (submitAll reports s.session)) c := by
      rw [h5]
      cases kept with
      | nil => rfl
      | cons x rest => simp [hd x (by simp)]
    rw [← h5, h6]
    unfold restAfterFiring
    rw [if_neg (by
      simp only [withSession_chan, setChan_chan_same, hs0, hq0]
      exact fun h => hnd ⟨h.2, h.1⟩)]
    simp only [modChan_eq, withSession_chan, setChan_chan_same, withSession_setChan,
      setChan_setChan, hi0]
    subst hS hc0
    rfl

end Sys2Proof.Machine
end

