-- ==== Sys2Proof/Laws/Moves.lean ====
section
/-! SUPPORT. The moves of the capture log into the report queue in one rule (R121, R125, R165,
R167). -/

namespace Sys2Proof.Machine

/-- The session after CAPTURE reports of some entries have entered (R125, R164). -/
def Session.withCaptures (se : Session) (entries : List CapEntry) : Session :=
  { se with
    reports := se.reports ++ entries.zipIdx.map fun x =>
      { sequence := se.nextSequence + BitVec.ofNat 16 x.2, body := .capture x.1
        session := se.number, state := .new }
    nextSequence := se.nextSequence + BitVec.ofNat 16 entries.length }

theorem withCaptures_nil (se : Session) : se.withCaptures [] = se := by
  simp [Session.withCaptures]

/-- One report after another takes the next sequence (R164). -/
theorem enter_withCaptures (se : Session) (e : CapEntry) (es : List CapEntry) :
    (se.enter (.capture e)).withCaptures es = se.withCaptures (e :: es) := by
  have h : ∀ n : Nat, se.nextSequence + 1#16 + BitVec.ofNat 16 n =
      se.nextSequence + BitVec.ofNat 16 (n + 1) := by
    intro n
    apply BitVec.eq_of_toNat_eq
    simp; omega
  simp only [Session.withCaptures, Session.enter, List.zipIdx_cons, List.map_cons,
    List.append_assoc, List.singleton_append, List.length_cons, h, Nat.zero_add,
    BitVec.ofNat_eq_ofNat, BitVec.add_zero]
  congr 3
  rw [List.zipIdx_succ, List.map_map]
  exact List.map_congr_left fun x _ => by simp only [Function.comp]

/-- One attempt at a move, with streaming on and the session OPEN (R125). -/
theorem moveCaptures_succ (k : Nat) (time line : Word) {cap : Capture} {se : Session}
    (hs : cap.streaming = true) (ho : se.state = .opened) :
    moveCaptures (k + 1) time line cap se =
      match cap.log with
      | [] => (cap, se)
      | e :: rest =>
        if 3 ≤ 32 - se.lossCheck.reports.length then
          moveCaptures k time line (Capture.appendGap { cap with log := rest } time line)
            (se.lossCheck.enter (.capture e))
        else (cap, se.lossCheck) := by
  conv_lhs => unfold moveCaptures
  rw [if_pos ⟨hs, ho⟩]
  rfl

/-- With no count waiting and no drop, moves take the oldest entries while three slots are free
(R125). -/
theorem moveCaptures_plain (k : Nat) (time line : Word) (cap : Capture) (se : Session)
    (hs : cap.streaming = true) (ho : se.state = .opened) (hl : se.lost = LostCounts.zero)
    (hd : cap.dropCount = 0) :
    moveCaptures k time line cap se =
      ({ cap with log := cap.log.drop (min k (30 - se.reports.length)) },
        se.withCaptures (cap.log.take (min k (30 - se.reports.length)))) := by
  induction k generalizing cap se with
  | zero => simp [moveCaptures, withCaptures_nil]
  | succ k ih =>
    have hc : se.lossCheck = se := by simp [Session.lossCheck, hl]
    have hnil : ∀ xs, xs = cap.log → xs = [] ∨ min (k + 1) (30 - se.reports.length) = 0 →
        (cap, se) = (({ cap with log := cap.log.drop (min (k + 1) (30 - se.reports.length)) } :
          Capture), se.withCaptures (cap.log.take (min (k + 1) (30 - se.reports.length)))) := by
      rintro xs rfl (h | h)
      · rw [h, List.drop_nil, List.take_nil, withCaptures_nil, ← h]
      · rw [h, List.drop_zero, List.take_zero, withCaptures_nil]
    rw [moveCaptures_succ k time line hs ho, hc]
    cases hlog : cap.log with
    | nil => have h := hnil _ rfl (.inl hlog); rwa [hlog] at h
    | cons e rest =>
      have hg : Capture.appendGap { cap with log := rest } time line = { cap with log := rest } := by
        simp only [Capture.appendGap, hd, if_true]
      dsimp only
      by_cases hr : 3 ≤ 32 - se.reports.length
      · rw [if_pos hr, hg, ih { cap with log := rest } (se.enter (.capture e)) hs ho hl hd]
        have hn : min (k + 1) (30 - se.reports.length) =
            min k (30 - (se.enter (.capture e)).reports.length) + 1 := by
          simp only [Session.enter, List.length_append, List.length_singleton]; omega
        rw [hn, enter_withCaptures, List.drop_succ_cons, List.take_succ_cons]
      · have h := hnil _ rfl (.inr (by omega))
        rw [if_neg hr]
        rwa [hlog] at h

/-- The moves tried in an event (R121, R125, R165, R167). -/
theorem movesTo_moveCaptures {time line : Word} {cap : Capture} {se : Session}
    (hs : cap.streaming = true) (ho : se.state = .opened) :
    MovesTo time line cap se
      (moveCaptures Config.reportQueueSize time line cap se).1
      (moveCaptures Config.reportQueueSize time line cap se).2 := by
  intro cap0 se0 n hse0 hcap0 hn
  suffices h : moveCaptures Config.reportQueueSize time line cap se =
      ({ cap0 with log := cap0.log.drop n }, se0.withCaptures (cap0.log.take n)) by
    rw [h]
    refine ⟨rfl, ?_⟩
    have : (cap0.log.take n).length = n := by rw [List.length_take]; omega
    simp only [Session.withCaptures, this]
  rw [show Config.reportQueueSize = 31 + 1 from rfl, moveCaptures_succ 31 time line hs ho]
  cases hlog : cap.log with
  | nil =>
    simp only [hlog, ne_eq, not_true_eq_false, false_and, if_false] at hse0 hcap0
    subst hse0 hcap0
    simp [hlog] at hn
    subst hn
    simp [withCaptures_nil]
  | cons e rest =>
    have hc : se.lossCheck = se0 := by
      have hne : cap.log ≠ [] := by simp [hlog]
      rw [hse0]
      unfold Session.lossCheck
      by_cases h : se.lost ≠ LostCounts.zero ∧ Config.ordinaryRoom ≤ se.freeSlots
      · rw [if_pos h]
        exact (if_pos ⟨hne, h⟩).symm
      · rw [if_neg h]
        exact (if_neg fun g => h g.2).symm
    dsimp only
    rw [hc]
    have hst : se0.state = .opened := by rw [hse0]; split <;> exact ho
    by_cases hr : 3 ≤ 32 - se0.reports.length
    · have hlost : se0.lost = LostCounts.zero := by
        rw [hse0] at hr ⊢
        split
        · rfl
        · rename_i h
          rw [if_neg h] at hr
          simp only [hlog, ne_eq, reduceCtorEq, not_false_eq_true, true_and, hr, and_true,
            not_not] at h
          exact h
      have hcap : Capture.appendGap { cap with log := rest } time line =
          { cap0 with log := cap0.log.tail } ∧ cap0.log = e :: cap0.log.tail ∧
          cap0.dropCount = 0 ∧ cap0.streaming = true := by
        rw [hcap0]
        unfold Capture.appendGap
        by_cases hd : cap.dropCount = 0
        · rw [if_pos hd, if_neg fun g => g.2.1 hd, hlog]
          exact ⟨rfl, rfl, hd, hs⟩
        · rw [if_neg hd, if_pos ⟨by simp [hlog], hd, hr⟩, hlog]
          exact ⟨rfl, rfl, rfl, hs⟩
      obtain ⟨h1, h2, h3, h4⟩ := hcap
      rw [if_pos hr, h1, moveCaptures_plain 31 time line { cap0 with log := cap0.log.tail }
        (se0.enter (.capture e)) h4 hst hlost h3]
      generalize cap0.log.tail = tl at h2
      have hroom : 30 - (se0.enter (.capture e)).reports.length + 1 = 30 - se0.reports.length := by
        simp only [Session.enter, List.length_append, List.length_singleton]; omega
      have hlen : cap0.log.length = tl.length + 1 := by rw [h2]; rfl
      obtain ⟨m, hm⟩ : ∃ m, n = m + 1 := ⟨n - 1, by omega⟩
      have hmin : m = min (30 - (se0.enter (.capture e)).reports.length) tl.length := by omega
      rw [hm, h2, List.drop_succ_cons, List.take_succ_cons, ← enter_withCaptures,
        Nat.min_eq_right (show 30 - (se0.enter (.capture e)).reports.length ≤ 31 by omega), hmin]
      rw [← List.drop_eq_drop_min, ← List.take_eq_take_min]
    · have hn0 : n = 0 := by omega
      rw [if_neg hr, hn0]
      have : cap0 = cap := by rw [hcap0]; simp [hr]
      simp [withCaptures_nil, this]

/-- With streaming on and the session OPEN the attempt makes those moves and touches nothing else
(R125). -/
theorem movesTo_tryMoves {s : State} (hs : s.capture.streaming = true)
    (ho : s.session.state = .opened) :
    MovesTo s.timeBase s.line.lineBase s.capture s.session (tryMoves s).capture
      (tryMoves s).session :=
  movesTo_moveCaptures hs ho

/-- With the session CLOSED an attempt at moves changes nothing (R125). -/
theorem tryMoves_of_closed {s : State} (h : s.session.state = .closed) : tryMoves s = s := by
  simp [tryMoves, moveCaptures, Config.reportQueueSize, h]

end Sys2Proof.Machine
end

