-- ==== Sys2Proof/Laws/Operands.lean ====
section
/-! SUPPORT. The fields of a payload read back: byte order, codes and bindings (sections 10.3 and
10.4). -/

namespace Sys2Proof.Machine

/-! ## Byte order -/

@[simp] theorem read16_le16 (h : Half) :
    read16 (h.extractLsb' 0 8) (h.extractLsb' 8 8) = h := by
  unfold read16
  apply BitVec.eq_of_getLsbD_eq
  intro i hi
  simp only [BitVec.getLsbD_append, BitVec.getLsbD_extractLsb']
  by_cases h8 : i < 8
  · simp [h8]
  · have : 8 + (i - 8) = i := by omega
    simp [h8, this]
    omega

@[simp] theorem read32_le32 (w : Word) :
    read32 (w.extractLsb' 0 8) (w.extractLsb' 8 8) (w.extractLsb' 16 8)
      (w.extractLsb' 24 8) = w := by
  unfold read32
  apply BitVec.eq_of_getLsbD_eq
  intro i hi
  simp only [BitVec.getLsbD_append, BitVec.getLsbD_extractLsb']
  by_cases h8 : i < 8
  · simp [h8]
  · by_cases h16 : i - 8 < 8
    · have : 8 + (i - 8) = i := by omega
      simp [h8, h16, this]
    · by_cases h24 : i - 8 - 8 < 8
      · have : 16 + (i - 8 - 8) = i := by omega
        simp [h8, h16, h24, this]
      · have : 24 + (i - 8 - 8 - 8) = i := by omega
        simp [h8, h16, h24, this]
        omega

theorem read32_toNat (a b c d : Byte) :
    (read32 a b c d).toNat =
      a.toNat + 256 * b.toNat + 65536 * c.toNat + 16777216 * d.toNat := by
  unfold read32
  have := a.isLt
  have := b.isLt
  have := c.isLt
  simp only [BitVec.toNat_append]
  rw [← Nat.shiftLeft_add_eq_or_of_lt (by omega), ← Nat.shiftLeft_add_eq_or_of_lt (by omega),
    ← Nat.shiftLeft_add_eq_or_of_lt (by omega)]
  simp only [Nat.shiftLeft_eq]
  omega

/-! ## Numbers and codes -/

@[simp] theorem channelOf_byteOf (c : Fin 8) : channelOf (byteOf c.val) = some c := by
  revert c; decide

@[simp] theorem programOf_byteOf (q : Fin 32) : programOf (byteOf (q.val + 1)) = some q := by
  revert q; decide

@[simp] theorem byteOf_program_ne (q : Fin 32) : byteOf (q.val + 1) ≠ 0 := by revert q; decide

@[simp] theorem boolOf_code (b : Bool) : boolOf (boolCode b) = some b := by cases b <;> rfl
@[simp] theorem levelOf_code (l : Level) : levelOf (levelCode l) = some l := by cases l <;> rfl
@[simp] theorem baseOf_code (b : Base) : baseOf b.code = some b := by cases b <;> rfl
@[simp] theorem modeOf_code (m : Mode) : modeOf m.code = some m := by cases m <;> rfl
@[simp] theorem overlapOf_code (o : Overlap) : overlapOf o.code = some o := by cases o <;> rfl
@[simp] theorem stallActionOf_code (a : StallAction) : stallActionOf a.code = some a := by
  cases a <;> rfl
@[simp] theorem capModeOf_code (m : CapMode) : capModeOf m.code = some m := by cases m <;> rfl
@[simp] theorem logEdgesOf_code (l : LogEdges) : logEdgesOf l.code = some l := by cases l <;> rfl
@[simp] theorem routeEdgeOf_code (e : RouteEdge) : routeEdgeOf e.code = some e := by
  cases e <;> rfl

/-- A code above 1 names no value of a field of two (R175). -/
theorem twoValues_of_large {x : Byte} (h : 1 < x.toNat) :
    boolOf x = none ∧ levelOf x = none ∧ baseOf x = none ∧ modeOf x = none ∧
      overlapOf x = none ∧ stallActionOf x = none := by
  refine ⟨?_, ?_, ?_, ?_, ?_, ?_⟩
  · unfold boolOf; split <;> first | omega | rfl
  · unfold levelOf; split <;> first | omega | rfl
  · unfold baseOf; split <;> first | omega | rfl
  · unfold modeOf; split <;> first | omega | rfl
  · unfold overlapOf; split <;> first | omega | rfl
  · unfold stallActionOf; split <;> first | omega | rfl

/-! ## Bindings -/

/-- A binding is read back from its own fields (R73, section 10.3). -/
@[simp] theorem bindingOf_fields (b : Binding) :
    bindingOf b.program b.base.code b.mode.code (levelCode b.idle) b.overlap.code b.stall.code
      (b.delay.setWidth 32) b.lateLimit = some b := by
  have hd : (b.delay.setWidth 32).toNat ≤ Config.maxDelay := by
    have := b.delay.isLt
    simp [Config.maxDelay]
    omega
  have hs : (b.delay.setWidth 32).setWidth 24 = b.delay := by
    apply BitVec.eq_of_toNat_eq
    simp
  simp only [bindingOf, baseOf_code, modeOf_code, levelOf_code, overlapOf_code,
    stallActionOf_code, if_pos hd, hs]

/-- A code that names no value, or a delay above 16,777,215, gives no binding (R73 check 1). -/
theorem bindingOf_of_bad {q : Fin 32} {base mode idle overlap stall : Byte} {d : Word} {l : Half}
    (h : 1 < base.toNat ∨ 1 < mode.toNat ∨ 1 < idle.toNat ∨ 1 < overlap.toNat ∨
      1 < stall.toNat ∨ 16777215 < d.toNat) :
    bindingOf q base mode idle overlap stall d l = none := by
  unfold bindingOf
  rcases h with h | h | h | h | h | h
  · simp [twoValues_of_large h]
  · simp [twoValues_of_large h]
  · simp [twoValues_of_large h]
  · simp [twoValues_of_large h]
  · simp [twoValues_of_large h]
  · split
    · exact if_neg (by simpa [Config.maxDelay] using h)
    · rfl

end Sys2Proof.Machine
end

