-- ==== Sys2Proof/Laws/Requests.lean ====
section
/-! SUPPORT. The request path in one rule each: what is served, what is not, and what the arbiter and
the end of a request leave unchanged. -/

namespace Sys2Proof.Machine

/-! ## The arbiter -/

/-- TXD stays as it is when it is busy or nothing waits for it (R152). -/
theorem arbitrate_of_txdLaw {s : State} (h : TxdLaw s) : arbitrate s = s := by
  unfold arbitrate arbitrateCarry
  cases ht : s.link.transmitter with
  | sending f l => rfl
  | idle =>
    obtain ⟨hr, he⟩ := h ht
    simp [hr, sendReport, he]

/-- The arbiter touches the link and the session, and nothing else. -/
theorem arbitrateCarry_eq (s : State) (k : Int) :
    arbitrateCarry s k =
      { s with link := (arbitrateCarry s k).link, session := (arbitrateCarry s k).session } := by
  unfold arbitrateCarry sendReply sendReport
  split
  · rfl
  · split <;> split <;> rfl

/-- The arbiter at the end of an event touches the link and the session, and nothing else. -/
theorem arbitrate_eq (s : State) :
    arbitrate s = { s with link := (arbitrate s).link, session := (arbitrate s).session } :=
  arbitrateCarry_eq s 0

/-- The arbiter at the end of a request touches the link, the session and the count of free values,
and nothing else. -/
theorem arbitrateEither_eq (s : State) :
    arbitrateEither s =
      { s with link := (arbitrateEither s).link, session := (arbitrateEither s).session
               freeCount := (arbitrateEither s).freeCount } := by
  unfold arbitrateEither
  split
  · dsimp only
    split
    · unfold sendReport; split <;> rfl
    · rw [arbitrate_eq]
  · rw [arbitrate_eq]

/-- The end of a request touches the link, the session and the count of free values, and nothing
else. -/
theorem concludeRequest_eq (r : Request) (f : Frame) (s : State) :
    concludeRequest r f s =
      { s with link := (concludeRequest r f s).link, session := (concludeRequest r f s).session
               freeCount := (concludeRequest r f s).freeCount } := by
  unfold concludeRequest
  rw [arbitrateEither_eq]

@[simp] theorem arbitrate_timeBase (s : State) :
    (arbitrate s).timeBase = s.timeBase := by rw [arbitrate_eq]
@[simp] theorem arbitrate_line (s : State) :
    (arbitrate s).line = s.line := by rw [arbitrate_eq]
@[simp] theorem arbitrate_store (s : State) :
    (arbitrate s).store = s.store := by rw [arbitrate_eq]
@[simp] theorem arbitrate_channels (s : State) :
    (arbitrate s).channels = s.channels := by rw [arbitrate_eq]
@[simp] theorem arbitrate_capture (s : State) :
    (arbitrate s).capture = s.capture := by rw [arbitrate_eq]
@[simp] theorem arbitrate_cutoff (s : State) :
    (arbitrate s).cutoff = s.cutoff := by rw [arbitrate_eq]
@[simp] theorem arbitrate_startUp (s : State) :
    (arbitrate s).startUp = s.startUp := by rw [arbitrate_eq]
@[simp] theorem arbitrate_pins (s : State) :
    (arbitrate s).pins = s.pins := by rw [arbitrate_eq]
@[simp] theorem arbitrate_pending (s : State) :
    (arbitrate s).pending = s.pending := by rw [arbitrate_eq]
@[simp] theorem arbitrate_freeCount (s : State) :
    (arbitrate s).freeCount = s.freeCount := by rw [arbitrate_eq]
@[simp] theorem arbitrate_chan (s : State) (c0 : Fin 8) :
    (arbitrate s).chan c0 = s.chan c0 := by rw [arbitrate_eq]; rfl
@[simp] theorem arbitrate_prog (s : State) (q0 : Fin 32) :
    (arbitrate s).prog q0 = s.prog q0 := by rw [arbitrate_eq]; rfl
@[simp] theorem arbitrate_input (s : State) (i0 : Fin 4) :
    (arbitrate s).input i0 = s.input i0 := by rw [arbitrate_eq]; rfl
@[simp] theorem arbitrate_route (s : State) (id0 : Fin 16) :
    (arbitrate s).route id0 = s.route id0 := by rw [arbitrate_eq]; rfl

@[simp] theorem concludeRequest_timeBase (r : Request) (f : Frame) (s : State) :
    (concludeRequest r f s).timeBase = s.timeBase := by rw [concludeRequest_eq]
@[simp] theorem concludeRequest_line (r : Request) (f : Frame) (s : State) :
    (concludeRequest r f s).line = s.line := by rw [concludeRequest_eq]
@[simp] theorem concludeRequest_store (r : Request) (f : Frame) (s : State) :
    (concludeRequest r f s).store = s.store := by rw [concludeRequest_eq]
@[simp] theorem concludeRequest_channels (r : Request) (f : Frame) (s : State) :
    (concludeRequest r f s).channels = s.channels := by rw [concludeRequest_eq]
@[simp] theorem concludeRequest_capture (r : Request) (f : Frame) (s : State) :
    (concludeRequest r f s).capture = s.capture := by rw [concludeRequest_eq]
@[simp] theorem concludeRequest_cutoff (r : Request) (f : Frame) (s : State) :
    (concludeRequest r f s).cutoff = s.cutoff := by rw [concludeRequest_eq]
@[simp] theorem concludeRequest_startUp (r : Request) (f : Frame) (s : State) :
    (concludeRequest r f s).startUp = s.startUp := by rw [concludeRequest_eq]
@[simp] theorem concludeRequest_pins (r : Request) (f : Frame) (s : State) :
    (concludeRequest r f s).pins = s.pins := by rw [concludeRequest_eq]
@[simp] theorem concludeRequest_pending (r : Request) (f : Frame) (s : State) :
    (concludeRequest r f s).pending = s.pending := by rw [concludeRequest_eq]
@[simp] theorem concludeRequest_chan (r : Request) (f : Frame) (s : State) (c0 : Fin 8) :
    (concludeRequest r f s).chan c0 = s.chan c0 := by rw [concludeRequest_eq]; rfl
@[simp] theorem concludeRequest_prog (r : Request) (f : Frame) (s : State) (q0 : Fin 32) :
    (concludeRequest r f s).prog q0 = s.prog q0 := by rw [concludeRequest_eq]; rfl
@[simp] theorem concludeRequest_input (r : Request) (f : Frame) (s : State) (i0 : Fin 4) :
    (concludeRequest r f s).input i0 = s.input i0 := by rw [concludeRequest_eq]; rfl
@[simp] theorem concludeRequest_route (r : Request) (f : Frame) (s : State) (id0 : Fin 16) :
    (concludeRequest r f s).route id0 = s.route id0 := by rw [concludeRequest_eq]; rfl

/-- After the arbiter has chosen, TXD is not idle while anything waits for it (R152). -/
theorem arbitrateCarry_txdLaw (s : State) (k : Int) : TxdLaw (arbitrateCarry s k) := by
  intro h
  unfold arbitrateCarry at h ⊢
  cases ht : s.link.transmitter with
  | sending f l => simp [ht] at h
  | idle =>
    simp only [ht] at h ⊢
    by_cases hr : s.link.replyQueue = []
    · simp only [hr, ne_eq, not_true_eq_false, if_false] at h ⊢
      cases he : s.session.eligible with
      | none => simp [sendReport, he, hr]
      | some r => simp [sendReport, he, transmit] at h
    · simp only [ne_eq, hr, not_false_eq_true, if_true] at h ⊢
      cases hq : s.link.replyQueue with
      | nil => exact absurd hq hr
      | cons f rest => simp [sendReply, hq, transmit] at h

/-! ## The head request -/

/-- The head request that may be executed is taken by the row of its KIND (R145, R146). -/
theorem takeRequest_of_serves {s : State} {r : Request} {mine : Byte → Bool} (h : Serves s r)
    (hk : mine r.kind = true) : takeRequest mine s = some (r, popRequest s) := by
  obtain ⟨hh, hc⟩ := h
  unfold takeRequest popRequest
  cases hq : s.link.requestQueue with
  | nil => simp [hq] at hh
  | cons x rest =>
    simp only [hq, List.head?_cons, Option.some.injEq] at hh
    subst hh
    simp [hc, hk]

/-- What a request row does when its request is served: the answer's reply concludes the state its
effect leaves (R146). -/
theorem serveRequest_of_serves {s : State} {r : Request} {k : Byte}
    {answer : State → List Byte → Answer × State} (h : Serves s r) (hk : r.kind = k) :
    serveRequest k answer s =
      concludeRequest r
        (replyTo r (answer (popRequest s) r.payload).1.result
          (answer (popRequest s) r.payload).1.fields)
        (answer (popRequest s) r.payload).2 := by
  unfold serveRequest
  rw [takeRequest_of_serves h (by simp [hk])]
  rfl

/-- What a request row does when there is no request it may serve: nothing (log 2). -/
theorem serveRequest_of_none {s : State} {k : Byte} {answer : State → List Byte → Answer × State}
    (h : takeRequest (· == k) s = none) : serveRequest k answer s = s := by
  unfold serveRequest
  rw [h]

/-- A request row executes the request it serves, in the words of the statements. -/
theorem executed_of_serves {i : Instr} {s : State} {r : Request} {k : Byte}
    {answer : State → List Byte → Answer × State} {result : Result} {fields : List Byte}
    {t : State} (hi : exec i s = .next (serveRequest k answer s)) (h : Serves s r)
    (hk : r.kind = k)
    (ha : answer (popRequest s) r.payload = ({ result := result, fields := fields }, t)) :
    Executed i s r result fields t := by
  unfold Executed
  rw [hi, serveRequest_of_serves h hk, ha]

/-- A request that needs a session is answered by what follows the session check when the session is
OPEN (R147). -/
theorem inSession_of_opened {s : State} {n : Nat} {k : Answer × State}
    (h : s.session.state = .opened) : inSession s n k = k := by simp [inSession, h]

/-- And by NO_SESSION, changing nothing, when it is CLOSED (R147). -/
theorem inSession_of_closed {s : State} {n : Nat} {k : Answer × State}
    (h : s.session.state = .closed) : inSession s n k = (refusal .noSession n, s) := by
  simp [inSession, h]

/-! ## Operand bytes -/

/-- The channel a byte names (R23). -/
theorem channelOf_of_names {b : Byte} {c : Fin 8} (h : NamesChannel b c) :
    channelOf b = some c := by
  unfold channelOf
  have : b.toNat = c.val := h
  simp [this]

/-- A byte of 8 or more names no channel (R23). -/
theorem channelOf_of_large {b : Byte} (h : 8 ≤ b.toNat) : channelOf b = none := by
  unfold channelOf
  simp; omega

/-- The program id a byte names (R1). -/
theorem programOf_of_names {b : Byte} {q : Fin 32} (h : NamesProgram b q) :
    programOf b = some q := by
  unfold programOf
  have : b.toNat = q.val + 1 := h
  have hq := q.isLt
  simp [this]

/-- 0 and a byte above 32 name no program id (R1, R5). -/
theorem programOf_of_out {b : Byte} (h : b = 0 ∨ 32 < b.toNat) : programOf b = none := by
  unfold programOf
  rcases h with rfl | h
  · simp
  · simp; omega

end Sys2Proof.Machine
end

