-- ==== Sys2Proof/Laws/Store.lean ====
section
/-! SUPPORT. What emptying a record, discarding the OPEN program and closing the session do to the
program store. -/

namespace Sys2Proof.Machine

theorem emptyProgram_prog (s : State) (q p : Fin 32) :
    (emptyProgram s q).prog p = if p = q then Program.none else s.prog p := by
  unfold emptyProgram
  show (s.setProg q Program.none).prog p = _
  by_cases h : p = q
  · subst h
    simp [State.setProg, State.prog]
  · have hv : (q : Nat) ≠ p := fun e => h (Fin.ext e.symm)
    simp [State.setProg, State.prog, h, Vector.getElem_set_ne, hv]

@[simp] theorem emptyProgram_freeSlots (s : State) (q : Fin 32) :
    (emptyProgram s q).store.freeSlots = s.store.freeSlots + (s.prog q).steps.length := rfl

/-- Emptying every OPEN record of a list, one after another. -/
theorem emptyOpen_foldl (qs : List (Fin 32)) (hn : qs.Nodup) (s t : State)
    (ht : t = qs.foldl (fun s q => if (s.prog q).state = .opened then emptyProgram s q else s) s) :
    (∀ p, t.prog p =
        if p ∈ qs ∧ (s.prog p).state = .opened then Program.none else s.prog p) ∧
      t.store.freeSlots = s.store.freeSlots +
        ((qs.filter fun q => (s.prog q).state == .opened).map fun q =>
          (s.prog q).steps.length).sum ∧
      t = { s with store := t.store } := by
  induction qs generalizing s t with
  | nil => simp [ht]
  | cons q qs ih =>
    rw [List.nodup_cons] at hn
    rw [List.foldl_cons] at ht
    by_cases h : (s.prog q).state = .opened
    · rw [if_pos h] at ht
      obtain ⟨h1, h2, h3⟩ := ih hn.2 (emptyProgram s q) t ht
      have same : ∀ x ∈ qs, (emptyProgram s q).prog x = s.prog x := by
        intro x hx
        rw [emptyProgram_prog, if_neg]
        rintro rfl
        exact hn.1 hx
      have e1 : (qs.filter fun x => ((emptyProgram s q).prog x).state == .opened) =
          qs.filter fun x => (s.prog x).state == .opened :=
        List.filter_congr fun x hx => by rw [same x hx]
      have e2 : ((qs.filter fun x => (s.prog x).state == .opened).map fun x =>
            ((emptyProgram s q).prog x).steps.length) =
          (qs.filter fun x => (s.prog x).state == .opened).map fun x =>
            (s.prog x).steps.length :=
        List.map_congr_left fun x hx => by rw [same x (List.mem_of_mem_filter hx)]
      refine ⟨fun p => ?_, ?_, h3⟩
      · rw [h1, emptyProgram_prog]
        by_cases hp : p = q
        · subst hp
          simp [hn.1, h]
        · simp [hp]
      · rw [h2, emptyProgram_freeSlots, e1, e2, List.filter_cons_of_pos (by simp [h])]
        simp only [List.map_cons, List.sum_cons]
        omega
    · rw [if_neg h] at ht
      obtain ⟨h1, h2, h3⟩ := ih hn.2 s t ht
      refine ⟨fun p => ?_, ?_, h3⟩
      · rw [h1]
        by_cases hp : p = q
        · subst hp
          simp [h]
        · simp [hp]
      · rw [h2, List.filter_cons_of_neg (by simp [h])]

/-- All that discarding the OPEN program does (R16). -/
theorem discardOpen_spec (s t : State) (ht : t = discardOpen s) :
    OpenDiscarded s t ∧ t = { s with store := t.store } := by
  obtain ⟨h1, h2, h3⟩ := emptyOpen_foldl allPrograms (by decide) s t (by rw [ht]; rfl)
  have hall : ∀ q, q ∈ allPrograms := by decide
  exact ⟨⟨fun q => by simpa [hall] using h1 q, h2⟩, h3⟩

/-- All that a session close does (R159). -/
theorem closeSession_spec (s t : State) (cause : CloseCause) (ht : t = closeSession s cause) :
    OpenDiscarded s t ∧
      t = { s with
            store := t.store
            session := s.session.closed cause
            capture := { s.capture with streaming := false }
            link := { s.link with cache := [] } } := by
  obtain ⟨⟨h1, h2⟩, h3⟩ := discardOpen_spec _ t (by rw [ht]; rfl)
  exact ⟨⟨h1, h2⟩, h3⟩

/-- Use counts released one binding after another depend on the store alone, and change nothing
else. -/
theorem releaseUse_foldl (f : Fin 8 → Option Binding) (cs : List (Fin 8)) (s : State) :
    cs.foldl (fun u c => releaseUse u (f c)) s =
      { s with store := (cs.foldl (fun u c => releaseUse u (f c)) s).store } := by
  induction cs generalizing s with
  | nil => rfl
  | cons c cs ih =>
    rw [List.foldl_cons, ih]
    cases f c <;> rfl

end Sys2Proof.Machine
end

