-- ==== Sys2Proof/Tests/Slice0.lean ====
section
/-! SUPPORT. Tests: the WellFormed smoke, the manual's fixed values, single steps whose results the
manual states, and, for every statement with hypotheses, a state and operands that meet them. -/

namespace Sys2Proof.Tests

open Sys2Proof Sys2Proof.Machine

set_option maxRecDepth 8000

/-! ## Ill-formed commands (R142, R155) -/

theorem test_len_byte_within_is_ill_formed :
    (Instr.invalidLenByte 2).wellFormed = false ∧ (Instr.invalidLenByte 242).wellFormed = false ∧
      (Instr.invalidLenByte 1).wellFormed = true ∧ (Instr.invalidLenByte 243).wellFormed = true := by
  decide

theorem test_short_reset_pulse_is_ill_formed :
    (Instr.hardReset (.resetN 9) .low .low).wellFormed = false ∧
      (Instr.hardReset (.resetN 10) .low .low).wellFormed = true := by
  decide

/-! ## Fixed values of the manual -/

/-- The check value of R141: the CRC of the nine bytes "123456789" is 29B1h. -/
theorem test_crc_check_value :
    crc16 [0x31, 0x32, 0x33, 0x34, 0x35, 0x36, 0x37, 0x38, 0x39] = 0x29B1 := by decide

/-- Section 10.1: every KIND assigned to a request is executed by its row, and no other. -/
theorem test_kind_of_each_row :
    ∀ k ∈ requestKinds, kindOfCommand (commandOfKind k) = some k ∧ namesNoRequest k = false := by
  decide

theorem test_other_kinds_name_no_request :
    namesNoRequest 0x00 = true ∧ namesNoRequest 0x07 = true ∧ namesNoRequest 0x0B = true ∧
      namesNoRequest 0x2B = true ∧ namesNoRequest 0x36 = true ∧ namesNoRequest 0x40 = true := by
  decide

/-- No table row has bits, so no word spells a command (log 24). -/
theorem test_no_word_spells_a_command : decodeTableWord 8 1 = none := by decide

/-- Section 10.3: a step's descriptor holds kind, level, input and edge, and duration 1 fits. -/
theorem test_step_from_bytes :
    stepOf 0x34 0x12 0x00 0xB5 =
      some { kind := .holdUntil 3 .fall, level := .high, duration := 0x1234 } ∧
    stepOf 0x01 0x00 0x00 0xFC = some { kind := .drive, level := .active, duration := 1 } ∧
    stepOf 0x00 0x00 0x00 0x00 = none ∧ stepOf 0x01 0x00 0x00 0x02 = none ∧
    stepOf 0x01 0x00 0x00 0x41 = none := by decide

/-- R140: the straps choose the rate. -/
theorem test_straps :
    (LinkRate.ofStraps .low .low).bitsPerSecond = 115200 ∧
      (LinkRate.ofStraps .low .high).bitsPerSecond = 460800 ∧
      (LinkRate.ofStraps .high .low).bitsPerSecond = 1000000 ∧
      (LinkRate.ofStraps .high .high).bitsPerSecond = 3000000 := by decide

/-- R87: a is at or after b when a - b is below 2^31. -/
theorem test_point_order :
    atOrAfter 5 5 = true ∧ atOrAfter 0 0xFFFFFFFF = true ∧ atOrAfter 0x80000000 0 = false ∧
      atOrAfter 0x7FFFFFFF 0 = true := by decide

/-! ## Small states -/

/-- A part after start-up with an OPEN session, every report class let through. -/
def live : State :=
  { State.reset with
    startUp := false, timeBase := 10000
    link := { State.reset.link with listened := 10000000 }
    session :=
      { Session.init with
        state := .opened, number := 7, silenceTimeout := some 0, resendTime := some 20
        mask := some { firing := true, missed := true, step := true, channel := true,
                       line := true } } }

/-- The part after start-up with no session, listening for a whole character. -/
def bare : State :=
  { State.reset with
    startUp := false, timeBase := 10000
    link := { State.reset.link with listened := 10000000 } }

/-- A request of a KIND and payload. -/
def req (k : Byte) (p : List Byte) : Request := { kind := k, tag := 9, payload := p, crc := 0x1234 }

/-- The state with that request waiting. -/
def ask (k : Byte) (p : List Byte) (s : State) : State :=
  { s with link := { s.link with requestQueue := [req k p] } }

/-- The state with TXD occupied. -/
def busy (s : State) : State :=
  { s with link := { s.link with
      transmitter := .sending { kind := 0x81, tag := 1, payload := [0, 0] } 1 } }

/-- A waiting request is served from a state that may execute. -/
theorem serves_ask (k : Byte) (p : List Byte) (s : State) (h : canExecute s = true) :
    Serves (ask k p s) (req k p) := ⟨rfl, h⟩

/-- A SEALED program of two steps: ACTIVE for 100, then LOW until a rise on CAP1 or 50. -/
def twoSteps (loopCount : Half) : Program :=
  { state := .sealed
    steps := [{ kind := .drive, level := .active, duration := 100 },
              { kind := .holdUntil 1 .rise, level := .low, duration := 50 }]
    loopStart := 0, loopCount := loopCount, useCount := 1 }

/-- A binding of program 1. -/
def bind0 (base : Base) (mode : Mode) (overlap : Overlap) (stall : StallAction) : Binding :=
  { program := 0, base := base, mode := mode, idle := .low, delay := 10, overlap := overlap,
    lateLimit := 5, stall := stall }

/-- An entry due at a point. -/
def entryAt (n : Half) (due : Word) : Entry :=
  { number := n, source := .host 0, trigger := due - 10, due := due }

/-- A firing of an entry, in the given step. -/
def firingIn (e : Option Entry) (step : Nat) (endPoint : Word) (runs : Half)
    (watch : Option Watch) : Firing :=
  { entry := e, lateness := e.map fun _ => 0, start := 9900, stepIndex := step, stepStart := 9900,
    stepEnd := endPoint, loopRuns := runs, watch := watch }

/-- CH3 under a binding, in a state, with program 1 sealed. -/
def withChannel (b : Binding) (state : ChanState) (queue : List Entry) (firing : Option Firing)
    (s : State) : State :=
  (s.setProg 0 (twoSteps (if b.mode = .triggered then 1 else 0))).setChan 3
    { Channel.init with
      state := state, active := some b, queue := queue, firing := firing }

/-- The field of a next state. -/
def after {α : Type} (o : Host.Outcome State Fault Refusal) (f : State → α) : Option α :=
  match o with
  | .next t => some (f t)
  | _ => none

/-! ## Single steps -/

/-- R142, R144: a damaged last CRC byte counts one CRC error and empties the framer. -/
theorem test_bad_crc_is_counted :
    after (exec (.frameComplete 0)
        { bare with link := { bare.link with framer := .check 2 [1, 9] (some 0) 10000 } })
      (fun t => (t.link.crcErrors, t.link.framer, t.link.requestQueue)) =
      some (1, .hunt, []) := by decide

/-- R155: a byte whose start bit came before the end of start-up is not received; at 115,200 bit/s
the tick that reaches ten bit times is the 87th. -/
theorem test_early_character_is_not_received :
    86 * LinkRate.r115200.bitsPerSecond < Config.characterTime ∧
      Config.characterTime ≤ 87 * LinkRate.r115200.bitsPerSecond ∧
      after (exec (.receivedByte 0xA5)
          { bare with link := { bare.link with listened := 86 * 115200 } })
        (fun t => t.link.framer) = some .hunt ∧
      after (exec (.receivedByte 0xA5) bare) (fun t => t.link.framer) =
        some (.length 10000) := by decide

/-- R146: a KIND that names no request is answered by FFh with UNKNOWN_KIND. -/
theorem test_unknown_kind_is_rejected :
    after (exec .reject (ask 0x7E [1, 2] (busy bare))) (fun t => t.link.replyQueue) =
      some [{ kind := 0xFF, tag := 9, payload := [1, 0] }] := by decide

/-- R154: IDENT tells 44h, 2408h, the revision and the capacities. -/
theorem test_ident_reply :
    after (exec .ident (ask 0x01 [] (busy bare))) (fun t => t.link.replyQueue) =
      some [{ kind := 0x81, tag := 9
              payload := [0, 0, 0x44, 0x08, 0x24, 1, 8, 4, 32, 0, 2, 16, 16, 64, 32] }] := by
  decide

/-- R24: ENABLE of a TRIGGERED channel makes it READY. -/
theorem test_enable_makes_ready :
    after (exec .enable (ask 0x21 [3]
        (withChannel (bind0 .time .triggered .defer .hold) .off [] none (busy live))))
      (fun t => ((t.chan 3).state, (t.chan 3).output, t.link.replyQueue.map Frame.payload)) =
      some (.ready, .low, [[0, 0, 1]]) := by decide

/-- R32, R36: the second step begins at the end point of the first, with its watch. -/
theorem test_step_end_begins_next :
    after (exec (.stepEnd 3)
        (withChannel (bind0 .time .triggered .defer .hold) .running []
          (some (firingIn (some (entryAt 0 9900)) 0 10000 0 none)) live))
      (fun t => (t.chan 3).firing.map fun f => (f.stepIndex, f.stepStart, f.stepEnd, f.watch)) =
      some (some (1, 10000, 10050, some { input := 1, edge := .rise })) := by decide

/-- R97: SET_LINE answers the old value and the offset. -/
theorem test_set_line_reply :
    after (exec .setLine (ask 0x29 [0, 1, 0, 0] (busy live)))
      (fun t => (t.line.lineBase, t.line.presetsMade, t.link.replyQueue.map Frame.payload)) =
      some (256, 1, [[0, 0, 0, 0, 0, 0, 0, 1, 0, 0]]) := by decide

/-- R128, R131, R132: an assertion of CUTOFF_N forces every member to its safe level. -/
theorem test_cutoff_pin_forces :
    after (exec .cutoffNAssertion
        { live with cutoff := { live.cutoff with candidate := some { level := .low, count := 5 } } })
      (fun t => (t.cutoff.latch, t.cutoff.causes, allChannels.map fun c => (t.chan c).state)) =
      some (.tripped, { pin := true, request := false, silence := false },
        List.replicate 8 .forced) := by decide

/-! ## Witnesses: states and operands that meet the hypotheses of each statement -/

theorem witness_HardResetGivesResetValues :
    (9 < 10) ∧ (ResetCause.resetN 10 = .resetN 10 ∧ 10 ≤ 10) ∧ ResetCause.powerOn = .powerOn := by
  decide

theorem witness_NoHappeningNoChange :
    happening .ident live = false ∧ happening (.stepEnd 3) live = false ∧
      happening .startUpEnd live = false := by decide

theorem witness_EveryRequestIsAnsweredOnce :
    Serves (ask 0x01 [] live) (req 0x01 []) ∧ kindOfCommand .ident = some (req 0x01 []).kind ∧
      Serves (ask 0x7E [] (busy live)) (req 0x7E []) ∧ (req 0x7E []).kind ∉ requestKinds ∧
      (ask 0x01 [] live).link.transmitter = .idle ∧
      (ask 0x7E [] (busy live)).link.transmitter ≠ .idle := by decide

theorem witness_KindThenLengthThenSession :
    (Serves (ask 0x00 [] bare) (req 0x00 []) ∧ (0x00 : Byte) ∉ requestKinds) ∧
    (Serves (ask 0x24 [0] bare) (req 0x24 [0]) ∧ (Instr.fire, 8, 7) ∈ sessionRequests ∧
      kindOfCommand .fire = some 0x24 ∧ (req 0x24 [0]).payload.length ≠ 8) ∧
    (Serves (ask 0x21 [0] bare) (req 0x21 [0]) ∧ (Instr.enable, 1, 1) ∈ sessionRequests ∧
      (req 0x21 [0]).payload.length = 1 ∧ (ask 0x21 [0] bare).session.state = .closed) ∧
    (Serves (ask 0x12 [] bare) (req 0x12 []) ∧ (Instr.sealProgram, 1) ∈ programRequests ∧
      (req 0x12 []).payload.length ≠ 1) ∧
    (Serves (ask 0x12 [1] bare) (req 0x12 [1]) ∧ (req 0x12 [1]).payload.length = 1) ∧
    Serves (ask 0x11 [1] bare) (req 0x11 [1]) ∧
    (Serves (ask 0x11 [1, 1, 5, 0, 0, 0] bare) (req 0x11 [1, 1, 5, 0, 0, 0]) ∧
      [5, 0, 0, (0 : Byte)].length = 4 * (1 : Byte).toNat) := by decide

theorem witness_append_length :
    ¬ ∃ id n bytes, (req 0x11 [1]).payload = id :: n :: bytes ∧ bytes.length = 4 * n.toNat := by
  simp [req]

theorem witness_IdentTellsCapacities :
    (Serves (ask 0x01 [] bare) (req 0x01 []) ∧ (req 0x01 []).payload = []) ∧
      Serves (ask 0x01 [1] bare) (req 0x01 [1]) ∧ (req 0x01 [1]).payload ≠ [] := by decide

theorem witness_StatusTellsAndClears :
    (Serves (ask 0x02 [2] bare) (req 0x02 [2]) ∧ 2 ≤ (2 : Byte).toNat) ∧
      (Serves (ask 0x02 [0] bare) (req 0x02 [0]) ∧
        (req 0x02 [0]).payload = [if false then 1 else 0]) ∧
      Serves (ask 0x02 [1] bare) (req 0x02 [1]) ∧
        (req 0x02 [1]).payload = [if true then 1 else 0] := by decide

theorem witness_ReadingRequestsTell :
    (Serves (ask 0x15 [33] live) (req 0x15 [33]) ∧ 32 < (33 : Byte).toNat) ∧
    (Serves (ask 0x15 [32] live) (req 0x15 [32]) ∧ NamesProgram 32 31) ∧
    (Serves (ask 0x16 [1, 0, 17] live) (req 0x16 [1, 0, 17]) ∧ 16 < (17 : Byte).toNat) ∧
    (Serves (ask 0x16 [1, 63, 16] live) (req 0x16 [1, 63, 16]) ∧ NamesProgram 1 0 ∧
      (live.prog 0).state = .empty) ∧
    (Serves (ask 0x16 [1, 0, 1] (live.setProg 0 (twoSteps 1))) (req 0x16 [1, 0, 1]) ∧
      ((live.setProg 0 (twoSteps 1)).prog 0).state ≠ .empty) ∧
    Serves (ask 0x2A [] live) (req 0x2A []) ∧ Serves (ask 0x33 [] live) (req 0x33 []) ∧
    live.session.state = .opened := by decide

theorem witness_ChannelStatusTellsRecord :
    (Serves (ask 0x25 [8] live) (req 0x25 [8]) ∧ 8 ≤ (8 : Byte).toNat) ∧
      Serves (ask 0x25 [7] live) (req 0x25 [7]) ∧ NamesChannel 7 7 ∧
      live.session.state = .opened := by decide

/-- An OPEN program 1 with one step. -/
def opened1 : Program :=
  { state := .opened, steps := [{ kind := .drive, level := .high, duration := 1 }],
    loopStart := 0, loopCount := 1, useCount := 0 }

theorem witness_DefineAndSealBuildAProgram :
    (Serves (ask 0x10 [0, 0, 1, 0] live) (req 0x10 [0, 0, 1, 0]) ∧
      Serves (ask 0x10 [1, 64, 1, 0] live) (req 0x10 [1, 64, 1, 0]) ∧ 63 < (64 : Byte).toNat ∧
      NamesProgram 1 0) ∧
    (Serves (ask 0x10 [1, 63, 1, 0] (live.setProg 0 opened1)) (req 0x10 [1, 63, 1, 0]) ∧
      ((live.setProg 0 opened1).prog 0).state ≠ .empty) ∧
    (Serves (ask 0x10 [2, 63, 1, 0] (live.setProg 0 opened1)) (req 0x10 [2, 63, 1, 0]) ∧
      NamesProgram 2 1 ∧ ((live.setProg 0 opened1).prog 1).state = .empty ∧
      ∃ p, ((live.setProg 0 opened1).prog p).state = .opened) ∧
    (Serves (ask 0x10 [1, 63, 1, 0] live) (req 0x10 [1, 63, 1, 0]) ∧
      (live.prog 0).state = .empty ∧ ∀ p, (live.prog p).state ≠ .opened) ∧
    (Serves (ask 0x12 [33] live) (req 0x12 [33]) ∧ Serves (ask 0x12 [1] live) (req 0x12 [1]) ∧
      (live.prog 0).state ≠ .opened) ∧
    (Serves (ask 0x12 [1] (live.setProg 0 { opened1 with loopStart := 1 })) (req 0x12 [1]) ∧
      ((live.setProg 0 { opened1 with loopStart := 1 }).prog 0).steps.length ≤
        ((live.setProg 0 { opened1 with loopStart := 1 }).prog 0).loopStart) ∧
    Serves (ask 0x12 [1] (live.setProg 0 opened1)) (req 0x12 [1]) ∧
      ((live.setProg 0 opened1).prog 0).loopStart <
        ((live.setProg 0 opened1).prog 0).steps.length := by decide

/-- One carried DRIVE step. -/
def group1 : Byte × Byte × Byte × Byte := (5, 0, 0, 4)

theorem witness_AppendAddsAllStepsOrNone :
    (Serves (ask 0x11 ([33, 1] ++ groupBytes [group1]) live)
        (req 0x11 ([33, 1] ++ groupBytes [group1])) ∧ [group1].length = (1 : Byte).toNat) ∧
    (Serves (ask 0x11 [1, 0] live) (req 0x11 [1, 0]) ∧
      ([] : List (Byte × Byte × Byte × Byte)).length = (0 : Byte).toNat) ∧
    (Serves (ask 0x11 ([1, 2] ++ groupBytes [group1, (5, 0, 0, 2)]) live)
        (req 0x11 ([1, 2] ++ groupBytes [group1, (5, 0, 0, 2)])) ∧
      stepFails group1 = false ∧ stepFails (5, 0, 0, 2) = true ∧
      [group1, (5, 0, 0, 2)] = [group1] ++ (5, 0, 0, 2) :: []) ∧
    (Serves (ask 0x11 ([1, 1] ++ groupBytes [group1]) live)
        (req 0x11 ([1, 1] ++ groupBytes [group1])) ∧ (live.prog 0).state ≠ .opened) ∧
    (64 < ((live.setProg 0 { opened1 with
        steps := List.replicate 64 { kind := .drive, level := .low, duration := 1 } }).prog
          0).steps.length + (1 : Byte).toNat) ∧
    (({ live with store := { live.store with freeSlots := 0 } } : State).store.freeSlots <
      (1 : Byte).toNat) ∧
    (((live.setProg 0 opened1).prog 0).state = .opened ∧
      (1 : Byte).toNat ≤ (live.setProg 0 opened1).store.freeSlots) := by decide

theorem witness_DiscardAndDeleteEmptyARecord :
    (Serves (ask 0x13 [0] live) (req 0x13 [0]) ∧ Serves (ask 0x14 [33] live) (req 0x14 [33])) ∧
    (Serves (ask 0x13 [1] live) (req 0x13 [1]) ∧ (live.prog 0).state ≠ .opened) ∧
    (Serves (ask 0x13 [1] (live.setProg 0 opened1)) (req 0x13 [1]) ∧
      ((live.setProg 0 opened1).prog 0).state = .opened) ∧
    (Serves (ask 0x14 [1] (live.setProg 0 opened1)) (req 0x14 [1]) ∧
      ((live.setProg 0 opened1).prog 0).state ≠ .sealed) ∧
    (Serves (ask 0x14 [1] (live.setProg 0 (twoSteps 1))) (req 0x14 [1]) ∧
      ((live.setProg 0 (twoSteps 1)).prog 0).useCount ≠ 0) ∧
    (Serves (ask 0x14 [1] (live.setProg 0 { twoSteps 1 with useCount := 0 })) (req 0x14 [1]) ∧
      ((live.setProg 0 { twoSteps 1 with useCount := 0 }).prog 0).state = .sealed) := by decide

/-- The payload of a BIND of CH3. -/
def bindPayload (b : Binding) : List Byte := byteOf 3 :: b.bytes

theorem witness_BindInstallsOnOffChannel :
    (Serves
        (ask 0x20 (bindPayload (bind0 .line .triggered .drop .abort))
          (withChannel (bind0 .time .triggered .defer .hold) .off [] none live))
        (req 0x20 (bindPayload (bind0 .line .triggered .drop .abort))) ∧
      ((withChannel (bind0 .time .triggered .defer .hold) .off [] none live).chan 3).state = .off ∧
      ((withChannel (bind0 .time .triggered .defer .hold) .off [] none live).prog 0).state =
        .sealed ∧
      ¬ ((bind0 .line .triggered .drop .abort).mode = .triggered ∧
        ((withChannel (bind0 .time .triggered .defer .hold) .off [] none live).prog
          0).loopCount = 0)) ∧
    (Serves (ask 0x20 (byteOf 3 :: 0 :: zeros 11) live) (req 0x20 (byteOf 3 :: 0 :: zeros 11)) ∧
      (zeros 11).length = 11 ∧ (live.chan 3).state = .off) ∧
    (Serves (ask 0x20 (8 :: zeros 12) live) (req 0x20 (8 :: zeros 12)) ∧
      (zeros 12).length = 12 ∧ 8 ≤ (8 : Byte).toNat) ∧
    (∀ p ∈ [[byteOf 3, 33, 0, 0, 0, 0, 0, 0, 0, 0, 0, 0, 0],
            [byteOf 3, 1, 2, 0, 0, 0, 0, 0, 0, 0, 0, 0, 0],
            [byteOf 3, 1, 0, 0, 0, 0, 0, 0, 0, 0, 1, 0, 0]],
      Serves (ask 0x20 p live) (req 0x20 p)) ∧
    (32 < (33 : Byte).toNat ∧ 1 < (2 : Byte).toNat ∧
      16777215 < (0 : Byte).toNat + 256 * (0 : Byte).toNat + 65536 * (0 : Byte).toNat +
        16777216 * (1 : Byte).toNat) ∧
    (Serves (ask 0x20 (bindPayload (bind0 .time .triggered .defer .hold)) live)
        (req 0x20 (bindPayload (bind0 .time .triggered .defer .hold))) ∧
      (live.prog 0).state ≠ .sealed) ∧
    (Serves
        (ask 0x20 (bindPayload (bind0 .time .triggered .defer .hold))
          (live.setProg 0 (twoSteps 0)))
        (req 0x20 (bindPayload (bind0 .time .triggered .defer .hold))) ∧
      ((live.setProg 0 (twoSteps 0)).prog 0).state = .sealed ∧
      ((live.setProg 0 (twoSteps 0)).prog 0).loopCount = 0) := by decide

/-- CH3 READY under a TRIGGERED TIME binding. -/
def ready3 : State := withChannel (bind0 .time .triggered .defer .hold) .ready [] none live

/-- CH3 RUNNING a firing of its second step. -/
def running3 : State :=
  withChannel (bind0 .time .triggered .defer .hold) .running []
    (some (firingIn (some (entryAt 0 9900)) 1 10000 0 (some { input := 1, edge := .rise }))) live

theorem witness_BindStagesInService :
    (ChannelLaw (ready3.chan 3) ∧ (ready3.chan 3).state = .ready ∧
      Serves (ask 0x20 (byteOf 3 :: 0 :: zeros 11) ready3)
        (req 0x20 (byteOf 3 :: 0 :: zeros 11))) ∧
    (Serves (ask 0x20 (bindPayload (bind0 .time .triggered .drop .hold)) ready3)
        (req 0x20 (bindPayload (bind0 .time .triggered .drop .hold))) ∧
      (ready3.chan 3).active = some (bind0 .time .triggered .defer .hold) ∧
      (ready3.prog 0).state = .sealed ∧ (ready3.chan 3).firing = none) ∧
    (((ready3.setProg 0 opened1).prog 0).state ≠ .sealed) ∧
    (((ready3.setProg 0 (twoSteps 0)).prog 0).loopCount = 0) ∧
    ((bind0 .time .triggered .defer .hold).base ≠ (bind0 .line .triggered .defer .hold).base) ∧
    (ChannelLaw (running3.chan 3) ∧ (running3.chan 3).inService = true ∧
      (running3.chan 3).firing ≠ none ∧
      Serves (ask 0x20 (bindPayload (bind0 .time .triggered .drop .hold)) running3)
        (req 0x20 (bindPayload (bind0 .time .triggered .drop .hold)))) := by
  refine ⟨⟨?_, by decide⟩, by decide, by decide, by decide, by decide, ?_, by decide⟩
  · decide
  · decide

/-- The part with its latch TRIPPED and every channel FORCED. -/
def tripped : State := trip live .request

theorem witness_EnablePutsIntoService :
    (Serves (ask 0x21 [8] live) (req 0x21 [8]) ∧ 8 ≤ (8 : Byte).toNat) ∧
    (Serves (ask 0x21 [3] tripped) (req 0x21 [3]) ∧ NamesChannel 3 3 ∧
      (tripped.chan 3).member = true ∧ tripped.cutoff.latch = .tripped) ∧
    (Serves (ask 0x21 [3] live) (req 0x21 [3]) ∧ (live.chan 3).active = none) ∧
    (Serves (ask 0x21 [3] ready3) (req 0x21 [3]) ∧ (ready3.chan 3).state ≠ .off) ∧
    (∃ b, ((withChannel (bind0 .time .triggered .defer .hold) .off [] none live).chan 3).active =
        some b ∧ b.mode = .triggered) ∧
    (((withChannel (bind0 .line .continuous .defer .hold) .off [] none live).chan 3).active =
        some (bind0 .line .continuous .defer .hold) ∧
      ((withChannel (bind0 .line .continuous .defer .hold) .off [] none live).prog 0).steps ≠
        []) := by
  refine ⟨by decide, by decide, by decide, by decide, ⟨_, rfl, rfl⟩, by decide⟩

theorem witness_StopDrainsOrFlushes :
    Serves (ask 0x22 [8] live) (req 0x22 [8]) ∧
    (Serves (ask 0x22 [3] tripped) (req 0x22 [3]) ∧ (tripped.chan 3).state = .forced) ∧
    (Serves (ask 0x22 [3] live) (req 0x22 [3]) ∧ (live.chan 3).state = .off) ∧
    ((withChannel (bind0 .time .triggered .defer .hold) .draining [] none live).chan 3).state =
      .draining ∧
    (Serves (ask 0x22 [3] running3) (req 0x22 [3]) ∧ (running3.chan 3).state = .running) ∧
    (Serves (ask 0x22 [3] ready3) (req 0x22 [3]) ∧ (ready3.chan 3).state = .ready) := by decide

theorem witness_HaltEndsAllWork :
    Serves (ask 0x23 [8] live) (req 0x23 [8]) ∧
    (Serves (ask 0x23 [3] tripped) (req 0x23 [3]) ∧ (tripped.chan 3).state = .forced) ∧
    (Serves (ask 0x23 [3] live) (req 0x23 [3]) ∧ (live.chan 3).state = .off) ∧
    (Serves (ask 0x23 [3] running3) (req 0x23 [3]) ∧ (running3.chan 3).haltable = true) := by
  decide

/-- The payload of a FIRE of CH3. -/
def firePayload (presence : Byte) (due : Word) : List Byte :=
  [byteOf 3] ++ le16 5 ++ [presence] ++ le32 due

/-- CH3 under a TRIGGERED TIME binding, with a queue. -/
def queued (overlap : Overlap) (state : ChanState) (queue : List Entry)
    (firing : Option Firing) : State :=
  withChannel (bind0 .time .triggered overlap .hold) state queue firing live

/-- CH3 RUNNING a firing, with a due entry and a later one in its queue. -/
def overlapped (overlap : Overlap) : State :=
  queued overlap .running [entryAt 1 10000, entryAt 2 10001]
    (some (firingIn (some (entryAt 0 9900)) 0 10500 0 none))

/-- CH3 with a later entry in its queue, RUNNING a firing. -/
def runningWith (overlap : Overlap) : State :=
  queued overlap .running [entryAt 2 10001]
    (some (firingIn (some (entryAt 0 9900)) 0 10500 0 none))

/-- The same, READY. -/
def readyWith (overlap : Overlap) : State := queued overlap .ready [entryAt 2 10001] none

/-- A new entry due now goes behind the entry due now and ahead of the later one. -/
theorem test_entry_takes_its_place :
    insertEntry 10000 (entryAt 7 10000) ((overlapped .drop).chan 3).queue =
      [entryAt 1 10000, entryAt 7 10000, entryAt 2 10001] := by decide

theorem witness_FireCreatesAnEntry :
    (Serves (ask 0x24 (8 :: zeros 7) live) (req 0x24 (8 :: zeros 7)) ∧ 8 ≤ (8 : Byte).toNat) ∧
    (Serves (ask 0x24 (firePayload 0 0) tripped) (req 0x24 (firePayload 0 0)) ∧
      (tripped.chan 3).state = .forced ∧ (live.chan 3).state = .off) ∧
    (Serves (ask 0x24 (firePayload 2 0) ready3) (req 0x24 (firePayload 2 0)) ∧
      (ready3.chan 3).active = some (bind0 .time .triggered .defer .hold)) ∧
    (((withChannel (bind0 .time .continuous .defer .hold) .running []
        (some (firingIn none 0 10000 0 none)) live).chan 3).state = .running) ∧
    (atOrAfter 9999 (chanNow ready3 3) = false ∧ chanNow ready3 3 = 10000) ∧
    (atOrAfter (10000 + 1073741825) (chanNow ready3 3) = true ∧
      1073741824 < ((10000 + 1073741825 : Word) - chanNow ready3 3).toNat) ∧
    ((10000 + 1073741824 - chanNow ready3 3).toNat ≤ 1073741824) ∧
    (16 ≤ ((withChannel (bind0 .time .triggered .defer .hold) .ready
        (List.replicate 16 (entryAt 0 20000)) none live).chan 3).queue.length) ∧
    (atOrAfter 10000 (10010 : Word) = false ∧ (ready3.chan 3).queue.length < 16) ∧
    (Serves (ask 0x24 (firePayload 1 10000) ready3) (req 0x24 (firePayload 1 10000)) ∧
      (ready3.chan 3).firing = none ∧ (ready3.chan 3).queue = [] ∧ (ready3.prog 0).steps ≠ []) ∧
    Serves (ask 0x24 (firePayload 1 10000) (readyWith .drop))
      (req 0x24 (firePayload 1 10000)) ∧
    Serves (ask 0x24 (firePayload 1 10000) (runningWith .defer))
      (req 0x24 (firePayload 1 10000)) ∧
    Serves (ask 0x24 (firePayload 1 10000) (runningWith .drop))
      (req 0x24 (firePayload 1 10000)) := by decide

/-- The cases of an entry created due now: with a firing under DEFER and under DROP, and on a READY
channel whose queue is not empty. -/
theorem witness_entry_created_due_now :
    (∀ s ∈ [runningWith .defer, runningWith .drop],
      (s.chan 3).firing ≠ none ∧ (s.chan 3).state = .running ∧
        (s.chan 3).queue = [entryAt 2 10001]) ∧
    ((readyWith .drop).chan 3).firing = none ∧ ((readyWith .drop).chan 3).state = .ready ∧
    ((readyWith .drop).chan 3).queue = [entryAt 2 10001] ∧
    ((readyWith .drop).prog 0).steps ≠ [] ∧
    insertEntry 10000 (entryAt 0 10000) [entryAt 2 10001] = [entryAt 0 10000, entryAt 2 10001] ∧
    [entryAt 2 10001] = [] ++ [entryAt 2 10001] ∧
    atOrAfter (10000 : Word) 10001 = false := by decide

/-- R61, R60: with a firing in progress, DROP discards an entry that FIRE creates due now. -/
theorem test_fire_due_now_under_drop :
    after (exec .fire (ask 0x24 (firePayload 1 10000)
        (busy (runningWith .drop))))
      (fun t => ((t.chan 3).queue, (t.chan 3).missed, (t.chan 3).accepted)) =
      some ([entryAt 2 10001], 1, 1) := by decide

theorem witness_ForcedChannelRefuses :
    (tripped.chan 3).state = .forced ∧ (tripped.chan 3).member = true ∧
      tripped.cutoff.latch = .tripped ∧ tripped.session.state = .opened ∧
      Serves (ask 0x21 [byteOf 3] tripped) (req 0x21 [byteOf 3]) ∧
      Serves (ask 0x22 [byteOf 3] tripped) (req 0x22 [byteOf 3]) ∧
      Serves (ask 0x23 [byteOf 3] tripped) (req 0x23 [byteOf 3]) ∧
      Serves (ask 0x20 (bindPayload (bind0 .time .triggered .defer .hold))
          (tripped.setProg 0 (twoSteps 1)))
        (req 0x20 (bindPayload (bind0 .time .triggered .defer .hold))) ∧
      ((tripped.setProg 0 (twoSteps 1)).prog 0).state = .sealed ∧
      Serves (ask 0x20 (byteOf 3 :: 0 :: zeros 11) tripped)
        (req 0x20 (byteOf 3 :: 0 :: zeros 11)) ∧
      Serves (ask 0x24 (byteOf 3 :: zeros 7) tripped) (req 0x24 (byteOf 3 :: zeros 7)) ∧
      Serves (ask 0x0A [byteOf 3, boolCode true, levelCode .high] tripped)
        (req 0x0A [byteOf 3, boolCode true, levelCode .high]) := by decide

/-- LINE in a state, with a candidate and a quiet time. -/
def lineIn (state : LineState) (candidate : Option Candidate) (quiet : Option Nat) : State :=
  { live with line := { live.line with
      lineState := state, candidate := candidate, quiet := quiet
      lastEdge := quiet.map fun _ => 9000
      stallLimit := if state = .waiting then 0 else 1 } }

theorem witness_TimebaseConfigActs :
    (Serves (ask 0x28 (15 :: le16 60001) live) (req 0x28 (15 :: le16 60001)) ∧
      60000 < (60001 : Half).toNat) ∧
    (Serves (ask 0x28 (15 :: le16 60000) live) (req 0x28 (15 :: le16 60000)) ∧
      live.line.lineState = .waiting ∧ live.line.candidate = none) ∧
    ((lineIn .stalled none (some 2000)).line.lineState = .stalled ∧
      ∀ k ∈ (lineIn .stalled (some { level := .high, count := 3 }) (some 2000)).line.candidate,
        k.count ≤ (3 : Byte).toNat) ∧
    ((lineIn .moving none (some 999)).line.lineState = .moving ∧
      ∀ q ∈ (lineIn .moving none (some 999)).line.quiet, q < (1 : Half).toNat * 1000) ∧
    ((lineIn .moving none (some 1000)).line.quiet = some 1000 ∧
      (1 : Half).toNat * 1000 ≤ 1000) ∧
    ((lineIn .waiting (some { level := .low, count := 4 }) none).line.candidate =
        some { level := .low, count := 4 } ∧ (3 : Byte).toNat < 4) ∧
    ((lineIn .waiting (some { level := .high, count := 4 }) none).line.candidate =
        some { level := .high, count := 4 }) := by decide

/-- LINE with a rising candidate that a filter of 3 completes. -/
def rising (state : LineState) (quiet : Nat) : State :=
  lineIn state (some { level := .high, count := 4 }) (some quiet)

/-- The cases of log 9: the new filter completes a rising candidate on a line that is STALLED, or
MOVING with its limit already reached. -/
theorem witness_timebase_config_completes :
    (Serves (ask 0x28 (3 :: le16 0) (rising .stalled 2000)) (req 0x28 (3 :: le16 0)) ∧
      Serves (ask 0x28 (3 :: le16 1) (rising .stalled 2000)) (req 0x28 (3 :: le16 1)) ∧
      (rising .stalled 2000).line.lineState = .stalled ∧
      (rising .stalled 2000).line.quiet = some 2000) ∧
    (Serves (ask 0x28 (3 :: le16 1) (rising .moving 1000)) (req 0x28 (3 :: le16 1)) ∧
      (rising .moving 1000).line.lineState = .moving ∧ (1 : Half) ≠ 0 ∧
      (rising .moving 1000).line.quiet = some 1000 ∧ (1 : Half).toNat * 1000 ≤ 1000) ∧
    (rising .moving 1000).line.candidate = some { level := .high, count := 4 } ∧
    (3 : Byte).toNat < 4 := by decide

theorem witness_SetLinePresetsLineBase :
    (Serves (ask 0x29 [0] live) (req 0x29 [0]) ∧ (req 0x29 [0]).payload.length ≠ 4) ∧
    (Serves (ask 0x29 (le32 5) bare) (req 0x29 (le32 5)) ∧
      (req 0x29 (le32 5)).payload.length = 4 ∧ bare.session.state = .closed) ∧
    (Serves (ask 0x29 (le32 5) live) (req 0x29 (le32 5)) ∧ live.session.state = .opened) := by
  decide

/-- A LINE-bound CH3 that has been handed one preset it has not taken. -/
def presetWaiting : State :=
  let s := withChannel (bind0 .line .triggered .defer .hold) .ready [entryAt 0 500] none live
  { s.setChan 3 { s.chan 3 with presets := [100] } with
    line := { s.line with lineBase := 100, presetsMade := 1, offsetSum := 100 } }

theorem witness_PresetMovesPointsWithTheLine :
    (presetWaiting.chan 3).presets = [100] ∧ (presetWaiting.chan 3).lineBound = true ∧
      PresetLaw presetWaiting ∧ ([] : List Word).length + 1 < 65536 ∧
      ((live.setChan 3 { Channel.init with presets := [7] }).chan 3).lineBound = false ∧
      ((live.setChan 3 { Channel.init with presets := [7] }).chan 3).presets = [7] := by decide

/-- CAP1 in a mode with a candidate and perhaps an open measurement. -/
def capIn (mode : CapMode) (level : Level) (count : Nat) (measure : Option Measure) : State :=
  live.setInput 1
    { mode := mode, logEdges := .both, filter := 3, level := some (oppositeLevel level)
      candidate := some { level := level, count := count }, measure := measure }

theorem witness_CaptureConfigSetsAnInput :
    (Serves (ask 0x30 [4, 0, 0, 0] live) (req 0x30 [4, 0, 0, 0]) ∧ 3 < (4 : Byte).toNat) ∧
    (Serves (ask 0x30 [3, 6, 0, 0] live) (req 0x30 [3, 6, 0, 0]) ∧ 5 < (6 : Byte).toNat) ∧
    (Serves (ask 0x30 [3, 0, 0, 15] live) (req 0x30 [3, 0, 0, 15]) ∧
      (0 : Byte) = CapMode.off.code ∧ (0 : Byte) = LogEdges.rise.code) ∧
    (Serves (ask 0x30 [1, 1, 2, 4] (capIn .edges .high 4 none)) (req 0x30 [1, 1, 2, 4]) ∧
      ∀ k ∈ ((capIn .edges .high 4 none).input 1).candidate, k.count ≤ (4 : Byte).toNat) ∧
    (Serves (ask 0x30 [1, 1, 2, 3] (capIn .edges .high 4 none)) (req 0x30 [1, 1, 2, 3]) ∧
      ((capIn .edges .high 4 none).input 1).mode ≠ .off ∧ (3 : Byte).toNat < 4) := by decide

/-- A route of CAP1 to CH3. -/
def route1 : Route := { input := 1, edge := .rise, channel := 3 }

theorem witness_RoutesAreAddedAndRemoved :
    (Serves (ask 0x31 [4, 0, 0] live) (req 0x31 [4, 0, 0]) ∧ 3 < (4 : Byte).toNat) ∧
    (Serves (ask 0x31 [1, 0, 3] (live.setRoute 0 (some route1))) (req 0x31 [1, 0, 3]) ∧
      (live.setRoute 0 (some route1)).route 0 = some route1 ∧
      ∀ j < (0 : Fin 16), (live.setRoute 0 (some route1)).route j ≠ some route1) ∧
    ((∀ id, live.route id ≠ some route1) ∧ live.route 0 = none ∧
      ∀ j < (0 : Fin 16), live.route j ≠ none) ∧
    (∀ id, ({ live with capture := { live.capture with
        routes := Vector.replicate 16 (some { route1 with channel := 0 }) } } : State).route id ≠
          none) ∧
    (Serves (ask 0x32 [16] live) (req 0x32 [16]) ∧ 15 < (16 : Byte).toNat) ∧
    (Serves (ask 0x32 [15] live) (req 0x32 [15]) ∧ live.route 15 = none) ∧
    (Serves (ask 0x32 [0] (live.setRoute 0 (some route1))) (req 0x32 [0]) ∧
      (live.setRoute 0 (some route1)).route 0 ≠ none) := by decide

/-- One entry of the capture log. -/
def logged1 (n : Half) : CapEntry :=
  { number := n, input := 1, kind := .rise, time := 9000, line := 0, value := 0,
    saturated := false }

/-- A log of two entries, perhaps streaming, perhaps after drops. -/
def logOf (streaming : Bool) (drops : Half) : State :=
  { live with capture := { live.capture with
      log := [logged1 0, logged1 1], nextNumber := 2 + drops, dropCount := drops
      streaming := streaming } }

theorem witness_ReadCapturesDrainsTheLog :
    (Serves (ask 0x34 [17] live) (req 0x34 [17]) ∧ 16 < (17 : Byte).toNat) ∧
    (Serves (ask 0x34 [16] (logOf true 0)) (req 0x34 [16]) ∧
      (logOf true 0).capture.streaming = true) ∧
    (Serves (ask 0x34 [1] (logOf false 0)) (req 0x34 [1]) ∧
      (logOf false 0).capture.dropCount = 0) ∧
    (Serves (ask 0x34 [1] (logOf false 3)) (req 0x34 [1]) ∧
      (logOf false 3).capture.dropCount ≠ 0) := by decide

/-- A queued report. -/
def reportOf (n : Half) (state : ReportState) : Report :=
  { sequence := n, body := .channelOff 3 .drained, session := 7, state := state }

/-- A session with some reports queued and some counts lost. -/
def sessionWith (n : Nat) (lost : Half) : Session :=
  { live.session with
    reports := List.replicate n (reportOf 1 .new), lost := { LostCounts.zero with step := lost } }

theorem witness_CaptureStreamMovesAtOnce :
    (Serves (ask 0x35 [2] live) (req 0x35 [2]) ∧ 1 < (2 : Byte).toNat) ∧
    Serves (ask 0x35 [0] (logOf true 0)) (req 0x35 [0]) ∧
    (Serves (ask 0x35 [1] (logOf true 0)) (req 0x35 [1]) ∧
      (logOf true 0).capture.streaming = true) ∧
    (Serves (ask 0x35 [1] (logOf false 0)) (req 0x35 [1]) ∧
      (logOf false 0).session.lost = LostCounts.zero ∧
      min (logOf false 0).capture.log.length (30 - (logOf false 0).session.reports.length) =
        2) := by decide

/-- A log to be moved into a report queue of so many reports, with lost counts waiting. -/
def crowded (reports : Nat) (drops : Half) : State :=
  { logOf false drops with session := sessionWith reports 1 }

theorem witness_moves_with_few_slots :
    (∀ s ∈ [crowded 28 3, crowded 29 3, crowded 30 3, crowded 29 0],
      Serves (ask 0x35 [1] s) (req 0x35 [1]) ∧ s.capture.streaming = false ∧
        s.capture.log ≠ [] ∧ s.session.lost ≠ LostCounts.zero) := by decide

/-- R165, R167: at three free slots one entry moves and two slots stay free; with lost counts
waiting, REPORTS_LOST takes that slot and none moves; at two free slots nothing moves. R121: with a
drop count above 0, the GAP stands behind the log once an entry has left it. -/
theorem test_moves_leave_two_free_slots :
    after (exec .captureStream (ask 0x35 [1]
        (busy { logOf false 0 with session := sessionWith 29 0 })))
      (fun t => (t.session.reports.length, t.capture.log)) = some (30, [logged1 1]) ∧
    after (exec .captureStream (ask 0x35 [1]
        (busy { logOf false 0 with session := sessionWith 29 1 })))
      (fun t => (t.session.reports.length, t.capture.log)) =
        some (30, [logged1 0, logged1 1]) ∧
    after (exec .captureStream (ask 0x35 [1]
        (busy { logOf false 3 with session := sessionWith 29 0 })))
      (fun t => (t.capture.dropCount, t.capture.log.map fun e => (e.number, e.kind))) =
        some (0, [(1, .rise), (5, .gap)]) := by decide

/-- A candidate on CUTOFF_N. -/
def cutoffCandidate (level : Level) (count : Nat) : State :=
  { live with cutoff := { live.cutoff with
      level := oppositeLevel level, candidate := some { level := level, count := count } } }

theorem witness_CutoffIsTrippedByRequestAndPin :
    (Serves (ask 0x08 [] bare) (req 0x08 []) ∧ (req 0x08 []).payload = []) ∧
    (cutoffCandidate .low 5).cutoff.candidate = some { level := .low, count := 5 } ∧
    (cutoffCandidate .high 5).cutoff.candidate = some { level := .high, count := 5 } := by decide

theorem witness_TripForcesEveryMember :
    running3.cutoff.latch = .clear ∧ tripped.cutoff.latch = .tripped ∧
      tripped.cutoff.causes.has .request = true ∧ tripped.cutoff.causes.has .pin = false := by
  decide

theorem witness_ReleaseReturnsForcedChannelsToOff :
    (Serves (ask 0x09 [] tripped) (req 0x09 []) ∧ tripped.cutoff.level = .high ∧
      tripped.cutoff.latch = .tripped) ∧
    (Serves (ask 0x09 [] live) (req 0x09 []) ∧ live.cutoff.latch = .clear) ∧
    (Serves (ask 0x09 [] (cutoffCandidate .high 1)) (req 0x09 []) ∧
      (cutoffCandidate .high 1).cutoff.level = .low) := by decide

theorem witness_OptionsAreSetInOff :
    (Serves (ask 0x0A [8, 0, 0] live) (req 0x0A [8, 0, 0]) ∧ 7 < (8 : Byte).toNat) ∧
    (Serves (ask 0x0A [7, 2, 0] live) (req 0x0A [7, 2, 0]) ∧ NamesChannel 7 7 ∧
      1 < (2 : Byte).toNat) ∧
    (Serves (ask 0x0A [3, 1, 1] tripped) (req 0x0A [3, 1, 1]) ∧
      (1 : Byte) = boolCode true ∧ (1 : Byte) = levelCode .high ∧
      tripped.cutoff.latch = .tripped) ∧
    (Serves (ask 0x0A [3, 1, 1] ready3) (req 0x0A [3, 1, 1]) ∧ (ready3.chan 3).state ≠ .off) ∧
    (Serves (ask 0x0A [3, 0, 1] live) (req 0x0A [3, 0, 1]) ∧ (live.chan 3).state = .off ∧
      ¬ (true = true ∧ live.cutoff.latch = .tripped)) := by decide

theorem witness_OpenSessionStartsTheNext :
    (Serves (ask 0x03 (le16 49 ++ le16 0 ++ [0]) bare) (req 0x03 (le16 49 ++ le16 0 ++ [0])) ∧
      ¬ ((49 : Half) = 0 ∨ (50 ≤ (49 : Half).toNat ∧ (49 : Half).toNat ≤ 60000))) ∧
    (Serves (ask 0x03 (le16 50 ++ le16 10 ++ [31]) bare)
        (req 0x03 (le16 50 ++ le16 10 ++ [31])) ∧
      50 ≤ (50 : Half).toNat ∧ 10 ≤ (10 : Half).toNat ∧ (31 : Byte).toNat < 32 ∧
      bare.session.state = .closed) ∧
    (Serves (ask 0x03 (le16 60000 ++ le16 5000 ++ [0]) live)
        (req 0x03 (le16 60000 ++ le16 5000 ++ [0])) ∧
      (60000 : Half).toNat ≤ 60000 ∧ (5000 : Half).toNat ≤ 5000 ∧
      live.session.state = .opened) := by decide

theorem witness_CloseSessionEndsTheSession :
    (Serves (ask 0x04 [2] live) (req 0x04 [2]) ∧ 1 < (2 : Byte).toNat) ∧
      (Serves (ask 0x04 [0] running3) (req 0x04 [0]) ∧ (0 : Byte) = if false then 1 else 0) ∧
      (Serves (ask 0x04 [1] running3) (req 0x04 [1]) ∧ (1 : Byte) = (if true then 1 else 0) ∧
        (allChannels.filter fun c => (running3.chan c).haltable) = [3]) := by
  decide

/-- A queue of a SENT report and a NEW one. -/
def twoReports : State :=
  { live with session := { live.session with
      reports := [reportOf 1 .sent, reportOf 2 .new], nextSequence := 3
      resendTimer := some 9999 } }

theorem witness_AckRemovesAHeadRun :
    (Serves (ask 0x05 (le16 2) twoReports) (req 0x05 (le16 2)) ∧
      (∀ x ∈ twoReports.session.reports, x.sequence = 2 → x.state = .new) ∧
      (twoReports.session.reports.map Report.sequence).Nodup) ∧
    (Serves (ask 0x05 (le16 1) twoReports) (req 0x05 (le16 1)) ∧
      twoReports.session.reports = [] ++ reportOf 1 .sent :: [reportOf 2 .new] ∧
      (reportOf 1 .sent).sequence = 1 ∧ (reportOf 1 .sent).state ≠ .new ∧
      twoReports.session.lost = LostCounts.zero ∧ twoReports.capture.streaming = false) := by
  decide

theorem witness_RestartActsAfterItsReply :
    (Serves (ask 0x06 [] live) (req 0x06 []) ∧ (req 0x06 []).payload = []) ∧
    (let s : State :=
        { busy running3 with link := { (busy running3).link with
            restartPending := true
            transmitter := .sending { kind := 0x86, tag := 1, payload := [0, 0] } 0 } };
      s.link.transmitter = .sending { kind := 0x86, tag := 1, payload := [0, 0] } 0 ∧
      (0 : Int) ≤ 0 ∧ s.link.restartPending = true ∧ s.link.replyQueue = []) := by decide

/-- The part with a framer state. -/
def framed (f : Framer) (s : State) : State := { s with link := { s.link with framer := f } }

theorem witness_FramerFollowsItsTable :
    bare.startUp = false ∧ bare.link.listened = 10000000 ∧ State.reset.startUp = true ∧
      ({ State.reset with startUp := false, link :=
          { State.reset.link with listened := 9999999 } } : State).link.listened < 10000000 ∧
      bare.link.framer = .hunt ∧
      (framed (.length 8000) bare).link.framer = .length 8000 ∧
      (2 ≤ (2 : Byte).toNat ∧ (242 : Byte).toNat ≤ 242) ∧
      ((1 : Byte).toNat < 2 ∧ 242 < (243 : Byte).toNat) ∧
      (framed (.body 3 [1] 7999) bare).link.framer = .body 3 [1] 7999 ∧
      (framed (.check 2 [1, 1] none 1) bare).link.framer = .check 2 [1, 1] none 1 ∧
      (framed (.check 2 [1, 1] (some 0) 1) bare).link.framer = .check 2 [1, 1] (some 0) 1 ∧
      2000 < (bare.timeBase - 7999).toNat ∧ ¬ 2000 < (bare.timeBase - 8000).toNat := by decide

/-- The CRC of an IDENT request with tag 9. -/
def identCrc : Half := crc16 [2, 1, 9]

/-- The part about to receive the last byte of that request. -/
def lastByte (s : State) : State :=
  framed (.check 2 [1, 9] (some (identCrc.extractLsb' 0 8)) 9990) s

/-- A cache entry of that request. -/
def identEntry : CacheEntry :=
  { tag := 9, crc := identCrc, reply := { kind := 0x81, tag := 9, payload := [0, 0, 0x44] } }

theorem witness_CompleteFrameIsJudged :
    (lastByte live).startUp = false ∧ 10000000 ≤ (lastByte live).link.listened ∧
      TxdLaw (lastByte live) ∧
      (lastByte live).link.framer = .check 2 [1, 9] (some (identCrc.extractLsb' 0 8)) 9990 ∧
      crc16 [2, 1, 9] = identCrc.extractLsb' 8 8 ++ identCrc.extractLsb' 0 8 ∧
      crc16 [2, 1, 9] ≠ (~~~ identCrc).extractLsb' 8 8 ++ identCrc.extractLsb' 0 8 ∧
      (lastByte bare).session.state = .closed ∧
      (∀ e ∈ (lastByte live).link.cache, ¬ (e.tag = 9 ∧ e.crc = identCrc)) ∧
      (∀ q ∈ (lastByte live).link.requestQueue, ¬ (q.tag = 9 ∧ q.crc = identCrc)) ∧
      (let s : State := { lastByte live with link := { (lastByte live).link with
          requestQueue := [{ req 0x01 [] with crc := identCrc }] } };
        ∃ q ∈ s.link.requestQueue, q.tag = 9 ∧ q.crc = identCrc) ∧
      (let s : State := { lastByte live with link := { (lastByte live).link with
          cache := [identEntry] } };
        s.link.cache = [] ++ identEntry :: [] ∧ identEntry.tag = 9 ∧ identEntry.crc = identCrc ∧
          identEntry.reply.payload = [0, 0, 0x44] ∧ TxdLaw s) := by decide

/-- The end of a frame on TXD. -/
def sent (s : State) : State :=
  { s with link := { s.link with
      transmitter := .sending { kind := 0x81, tag := 1, payload := [0, 0] } 0 } }

theorem witness_TransmissionEndStartsTheNext :
    (-((busy live).link.rate.bitsPerSecond : Int) < 0 ∧
      ¬ (-((busy live).link.rate.bitsPerSecond : Int) < -115200)) ∧
    ((0 : Int) < 1 ∧ (busy live).link.transmitter =
      .sending { kind := 0x81, tag := 1, payload := [0, 0] } 1) ∧
    ((sent live).link.transmitter = .sending { kind := 0x81, tag := 1, payload := [0, 0] } 0 ∧
      ¬ ((sent live).link.restartPending = true ∧ (sent live).link.replyQueue = [])) ∧
    ({ sent live with link := { (sent live).link with
        replyQueue := [identEntry.reply] } } : State).link.replyQueue =
      identEntry.reply :: [] ∧
    ((sent bare).session.state = .closed ∧ (sent bare).link.replyQueue = []) ∧
    ((sent twoReports).session.state = .opened ∧ (sent twoReports).session.sentCount < 8 ∧
      (sent twoReports).session.reports = [reportOf 1 .sent] ++ reportOf 2 .new :: [] ∧
      (∀ y ∈ [reportOf 1 .sent], y.state = .sent) ∧ (reportOf 2 .new).state ≠ .sent) := by decide

theorem witness_StartUpEndTakesThePins :
    (State.reset.startUp = true ∧ TxdLaw State.reset ∧ State.reset.timeBase.toNat < 5000) ∧
      5000 ≤ ({ State.reset with timeBase := 5000 } : State).timeBase.toNat ∧
      ({ State.reset with pins := { State.reset.pins with cutoffN := .low } } :
        State).pins.cutoffN = .low ∧ State.reset.pins.cutoffN = .high := by decide

theorem witness_TickSamplesAndCounts :
    State.reset.startUp = true ∧ live.startUp = false ∧ (live.input 0).level = none ∧
      ((capIn .edges .high 1 none).input 1).level = some .low ∧
      ((capIn .edges .high 1 none).input 1).candidate = some { level := .high, count := 1 } := by
  decide

theorem witness_LineEdgesAndStall :
    TxdLaw (lineIn .moving (some { level := .high, count := 1 }) (some 10)) ∧
    ((lineIn .waiting (some { level := .low, count := 0 }) none).line.candidate =
      some { level := .low, count := 0 } ∧
      0 ≤ (lineIn .waiting (some { level := .low, count := 0 }) none).line.filter.toNat) ∧
    ((lineIn .moving (some { level := .low, count := 1 }) (some 10)).line.filter.toNat < 1) ∧
    ((lineIn .waiting (some { level := .high, count := 1 }) none).line.lastEdge = none ∧
      (lineIn .waiting (some { level := .high, count := 1 }) none).line.lineState ≠ .stalled) ∧
    ((lineIn .stalled (some { level := .high, count := 1 }) (some 4000)).line.lineState =
        .stalled ∧
      (lineIn .stalled (some { level := .high, count := 1 }) (some 4000)).line.quiet =
        some 4000) ∧
    ((lineIn .moving none (some 999)).line.lastEdge = some 9000 ∧
      999 < (lineIn .moving none (some 999)).line.stallLimit.toNat * 1000) ∧
    ((lineIn .moving none (some 1000)).line.stallLimit ≠ 0 ∧
      (lineIn .moving none (some 1000)).line.stallLimit.toNat * 1000 ≤ 1000) := by decide

theorem witness_CaptureEdgeIsHandedOn :
    ((capIn .edges .high 3 none).input 1).mode ≠ .off ∧
      ((capIn .edges .high 3 none).input 1).candidate = some { level := .high, count := 3 } ∧
      3 ≤ ((capIn .edges .high 3 none).input 1).filter.toNat ∧
      ((capIn .edges .high 4 none).input 1).filter.toNat < 4 := by decide

theorem witness_CaptureEdgeIsLogged :
    (let s := capIn .edges .high 4 none;
      (s.input 1).mode ≠ .off ∧ (s.input 1).filter.toNat < 4 ∧ s.capture.streaming = false ∧
        (s.input 1).logEdges = .both ∧ s.capture.log.length < 64) ∧
    (let s : State := { capIn .edges .high 4 none with capture :=
        { (capIn .edges .high 4 none).capture with streaming := true } };
      (s.input 1).candidate = some { level := .high, count := 4 } ∧
        (s.input 1).filter.toNat < 4 ∧ s.capture.streaming = true ∧
        s.session.state = .opened ∧ s.capture.log.length < 64) ∧
    ((capIn .widthHigh .high 4 none).input 1).mode = .widthHigh ∧
    (let s := capIn .widthHigh .low 4 (some { start := 9000, elapsed := 16777215 });
      (s.input 1).measure = some { start := 9000, elapsed := 16777215 } ∧
        16777215 < 16777216 ∧ (16777215 : BitVec 24).toNat = 16777215) ∧
    (let s := capIn .widthLow .high 4 (some { start := 9000, elapsed := 16777216 });
      (s.input 1).mode = .widthLow ∧
        (s.input 1).measure = some { start := 9000, elapsed := 16777216 }) ∧
    ((capIn .periodRise .high 4 none).input 1).measure = none ∧
    ((capIn .periodFall .low 4 (some { start := 9000, elapsed := 5 })).input 1).mode =
      .periodFall ∧
    64 ≤ ({ capIn .edges .high 4 none with capture :=
        { (capIn .edges .high 4 none).capture with
          log := List.replicate 64 (logged1 0) } } : State).capture.log.length := by decide

/-- The session with its timers at a point. -/
def timersAt (p : Word) : State :=
  { live with session := { live.session with
      silenceTimeout := some 50, silenceTimer := some p, resendTimer := some p } }

theorem witness_TimersExpire :
    ((timersAt 10001).session.silenceTimer = some 10001 ∧
      (timersAt 10001).session.resendTimer = some 10001 ∧
      atOrAfter (timersAt 10001).timeBase 10001 = false) ∧
      (timersAt 10000).session.silenceTimer = some 10000 ∧
      (timersAt 10000).session.resendTimer = some 10000 ∧
      atOrAfter (timersAt 10000).timeBase 10000 = true ∧ TxdLaw (timersAt 10000) := by decide

theorem witness_HeadEntryStartsOrWaits :
    (TxdLaw (queued .defer .ready [entryAt 1 10001] none) ∧
      atOrAfter (chanNow (queued .defer .ready [entryAt 1 10001] none) 3) 10001 = false) ∧
    (atOrAfter (chanNow (queued .defer .ready [entryAt 1 10000] none) 3) 10000 = true ∧
      ((queued .defer .ready [entryAt 1 10000] none).chan 3).firing = none ∧
      ((queued .defer .ready [entryAt 1 10000] none).prog 0).steps ≠ []) ∧
    (let s := overlapped .drop;
      (s.chan 3).firing ≠ none ∧ (s.chan 3).inService = true ∧
        [entryAt 1 10000, entryAt 2 10001] = [entryAt 1 10000] ++ [entryAt 2 10001] ∧
        (∀ y ∈ [entryAt 1 10000], atOrAfter (chanNow s 3) y.due = true) ∧
        ∀ y ∈ [entryAt 2 10001].head?, atOrAfter (chanNow s 3) y.due = false) := by decide

theorem witness_OverdueEntriesAreDiscarded :
    (let s := queued .defer .off [entryAt 1 (10000 - 1073741824), entryAt 2 10000] none;
      (∀ y ∈ [entryAt 1 (10000 - 1073741824)],
          atOrAfter (chanNow s 3) (y.due + 1073741824) = true) ∧
        ∀ y ∈ [entryAt 2 10000].head?,
          atOrAfter (chanNow s 3) (y.due + 1073741824) = false) ∧
    (let s := queued .defer .off [entryAt 1 (10001 - 1073741824)] none;
      ∀ y ∈ [entryAt 1 (10001 - 1073741824)].head?,
        atOrAfter (chanNow s 3) (y.due + 1073741824) = false) := by decide

/-- A firing in its first step, whose end point is reached. -/
def firstStep : Firing := firingIn (some (entryAt 0 9900)) 0 10000 0 none

/-- A firing in its last step, watching CAP1. -/
def lastStep (runs : Half) : Firing :=
  firingIn (some (entryAt 0 9900)) 1 10000 runs (some { input := 1, edge := .rise })

theorem witness_StepEndRunsTheNextStep :
    EndsStep (.stepEnd 3) (queued .defer .running [] (some firstStep)) 3
        (bind0 .time .triggered .defer .hold) firstStep 10000
        (queued .defer .running [] (some firstStep)) ∧
      ((queued .defer .running [] (some firstStep)).prog 0).steps[firstStep.stepIndex + 1]? ≠
        none := by
  refine ⟨⟨by decide, by decide, by decide, Or.inl ⟨rfl, rfl, by decide, rfl, rfl⟩⟩, by decide⟩

/-- CH3 RUNNING its second step, which watches a rise on CAP1 from 9900 on, with an edge offered. -/
def offered (input : Fin 4) (edge : Edge) (time : Word) (firing : Option Firing)
    (state : ChanState) : State :=
  let s := queued .defer state [] firing
  s.setChan 3 { s.chan 3 with
    offers := [{ input := input, edge := edge
                 stamp := { time := time, line := 0, mark := 0, offset := 0 } }] }

theorem witness_step_end_offers :
    (∀ s ∈ [offered 2 .rise 9950 (some (lastStep 0)) .running,
            offered 1 .fall 9950 (some (lastStep 0)) .running,
            offered 1 .rise 9899 (some (lastStep 0)) .running,
            offered 1 .rise 9950 (some firstStep) .running,
            offered 1 .rise 9950 none .ready,
            offered 1 .rise 9950 none .off],
      TxdLaw s ∧ (s.chan 3).offers ≠ []) ∧
    (lastStep 0).watch = some { input := 1, edge := .rise } ∧ firstStep.watch = none ∧
    (2 : Fin 4) ≠ 1 ∧ Edge.fall ≠ Edge.rise ∧
    atOrAfter (9899 : Word) (lastStep 0).stepStart = false ∧
    atOrAfter (9900 : Word) (lastStep 0).stepStart = true ∧
    ((offered 1 .rise 9950 none .off).chan 3).inService = false := by decide

theorem witness_FiringEndIsExamined :
    EndsStep (.holdUntilTimeout 3) (queued .defer .running [] (some (lastStep 0))) 3
        (bind0 .time .triggered .defer .hold) (lastStep 0) 10000
        (submit (queued .defer .running [] (some (lastStep 0))) (.stepTimeout 3 (some 0) 1)) ∧
      ((queued .defer .running [] (some (lastStep 0))).prog 0).steps.length ≤
        (lastStep 0).stepIndex + 1 ∧
      ((queued .defer .running [] (some (lastStep 0))).prog 0).loopCount ≠ 0 ∧
      (lastStep 0).loopRuns = 0 ∧ (lastStep 0).entry ≠ none := by
  refine ⟨⟨by decide, by decide, by decide,
    Or.inr (Or.inl ⟨rfl, by decide, by decide, rfl, rfl⟩)⟩, by decide⟩

/-- A CONTINUOUS pass in its last step, with the edge it watches offered. -/
def passOffered (state : ChanState) : State :=
  let s := withChannel (bind0 .time .continuous .defer .hold) state []
    (some { lastStep 0 with entry := none, lateness := none }) live
  s.setChan 3 { s.chan 3 with
    offers := [{ input := 1, edge := .rise
                 stamp := { time := 9950, line := 0, mark := 0, offset := 0 } }] }

theorem witness_PassWrapsAtItsPoints :
    EndsStep (.holdUntilEdge 3) (passOffered .running) 3 (bind0 .time .continuous .defer .hold)
        { lastStep 0 with entry := none, lateness := none } 9950
        ((passOffered .running).setChan 3 { (passOffered .running).chan 3 with offers := [] }) ∧
      ((passOffered .running).prog 0).steps.length ≤ (lastStep 0).stepIndex + 1 ∧
      ((passOffered .running).chan 3).state = .running ∧
      ((passOffered .running).chan 3).pending = none ∧
      ((passOffered .running).prog 0).loopCount = 0 ∧
      ((passOffered .draining).chan 3).state = .draining := by
  refine ⟨⟨by decide, by decide, by decide, Or.inr (Or.inr ⟨rfl, _, [], rfl, by decide,
    by decide, by decide, rfl⟩)⟩, by decide⟩

/-- CH3 with a trigger delivered. -/
def triggered3 (time : Word) (s : State) : State :=
  s.setChan 3 { s.chan 3 with
    triggers := [{ route := 0, input := 1, edge := .rise
                   stamp := { time := time, line := 0, mark := 0, offset := 0 } }] }

theorem witness_RouteTriggerIsTakenByState :
    (TxdLaw (triggered3 10000 ready3) ∧ ((triggered3 10000 ready3).chan 3).triggers ≠ [] ∧
      ((triggered3 10000 ready3).chan 3).lineBound = false ∧
      pointOfStamp ((triggered3 10000 ready3).chan 3)
        { time := 10000, line := 0, mark := 0, offset := 0 } = 10000) ∧
    ((presetWaiting.chan 3).lineBound = true ∧ (0 : Half) = (presetWaiting.chan 3).presetsTaken ∧
      (1 : Half) ≠ (presetWaiting.chan 3).presetsTaken) ∧
    ((triggered3 10000 live).chan 3).state = .off ∧
    (((triggered3 10000 tripped).chan 3).state = .forced ∧
      ((triggered3 10000 tripped).chan 3).active = none) ∧
    ((queued .defer .draining [] none).chan 3).state = .draining ∧
    ((passOffered .running).chan 3).state = .running ∧
    16 ≤ ((queued .defer .ready (List.replicate 16 (entryAt 0 20000)) none).chan 3).queue.length ∧
    (((triggered3 10000 ready3).chan 3).queue.length < 16 ∧
      atOrAfter (chanNow ready3 3) (10000 + 10) = false) ∧
    (atOrAfter (chanNow ready3 3) (9990 + 10) = true ∧
      ((triggered3 9990 ready3).chan 3).firing = none ∧
      ((triggered3 9990 ready3).chan 3).queue = []) ∧
    (∀ s ∈ [triggered3 9990 (runningWith .defer), triggered3 9990 (runningWith .drop)],
      TxdLaw s ∧ (s.chan 3).firing ≠ none ∧ (s.chan 3).state = .running ∧
        (s.chan 3).queue.length < 16) := by decide

/-- R69: a trigger stamped at line value 95 before a preset by 100 that the channel has taken stands
at 195, and its entry is due 10 later. -/
theorem test_trigger_point_moves_with_the_preset :
    after (exec (.routeTrigger 3)
        (presetWaiting.setChan 3 { presetWaiting.chan 3 with
          presets := [], presetsTaken := 1, coords := 100, queue := []
          triggers := [{ route := 0, input := 1, edge := .rise
                         stamp := { time := 0, line := 95, mark := 0, offset := 0 } }] }))
      (fun t => (t.chan 3).queue.map fun x => (x.trigger, x.due)) = some [(195, 205)] := by
  decide

/-- CH3 with a stall notice handed to it. -/
def noticed (b : Binding) (firing : Option Firing) : State :=
  let s := withChannel b .running [] firing live
  s.setChan 3 { s.chan 3 with stallNotices := 1 }

theorem witness_StallNoticeIsActedOn :
    (TxdLaw (noticed (bind0 .line .triggered .defer .hold) none) ∧
      ((noticed (bind0 .line .triggered .defer .hold) none).chan 3).stallNotices = 0 + 1 ∧
      ((noticed (bind0 .line .triggered .defer .hold) none).chan 3).firing = none) ∧
    (((noticed (bind0 .line .triggered .defer .hold) (some firstStep)).chan 3).firing =
        some firstStep ∧ (bind0 .line .triggered .defer .hold).stall = .hold) ∧
    (((noticed (bind0 .line .triggered .defer .abort) (some firstStep)).chan 3).inService = true ∧
      firstStep.entry ≠ none) ∧
    ((noticed (bind0 .line .continuous .defer .abort)
        (some { firstStep with entry := none, lateness := none })).chan 3).inService = true := by
  decide

theorem witness_EntriesStandInDueOrder :
    [entryAt 0 10000, entryAt 1 10000, entryAt 2 10001].Pairwise
      (fun a b => (a.due - 9999).toInt ≤ (b.due - 9999).toInt) := by decide

/-- A NEW MISSED of CH3. -/
def missed3 (count : Half) : MissedReport :=
  { channel := 3, cause := .late, count := count, number := some 1, source := .host 0,
    trigger := 0, due := some 10 }

theorem witness_SubmissionIsJudged :
    (bare.session.state = .closed ∧ live.session.state = .opened ∧ live.session.mask ≠ none) ∧
    ((ReportBody.stepTimeout 3 none 0).kind = 0xC3 ∧
      ({ firing := true, missed := true, step := false, channel := true, line := true } :
        ReportMask).step = false) ∧
    ([reportOf 1 .sent, { reportOf 2 .new with body := .missed (missed3 65535) }] =
        [reportOf 1 .sent] ++ { reportOf 2 .new with body := .missed (missed3 65535) } :: [] ∧
      (missed3 65535).channel = (missed3 1).channel ∧
      (missed3 65535).cause = (missed3 1).cause) ∧
    ((ReportBody.cutoffReleased 0).kind = 0xCA ∧ 32 - (sessionWith 31 0).reports.length = 1 ∧
      32 - (sessionWith 32 0).reports.length = 0) ∧
    ((sessionWith 29 0).lost = LostCounts.zero ∧ 3 ≤ 32 - (sessionWith 29 0).reports.length) ∧
    ((sessionWith 28 1).lost ≠ LostCounts.zero ∧ 4 ≤ 32 - (sessionWith 28 1).reports.length) ∧
    ((sessionWith 29 1).lost ≠ LostCounts.zero ∧ 32 - (sessionWith 29 1).reports.length = 3) ∧
    32 - (sessionWith 30 1).reports.length < 3 ∧
    (ReportBody.channelOff 3 .drained).kind = 0xC4 := by decide

theorem witness_FrameBytesDecodeToTheRequest :
    bare.startUp = false ∧ 10000000 ≤ bare.link.listened ∧ bare.link.framer = .hunt ∧
      bare.session.state = .closed ∧
      bare.session.silenceTimer = none ∧ TxdLaw bare ∧ bare.link.requestQueue.length < 4 ∧
      ({ kind := 0x11, tag := 1, payload := List.replicate 240 0 } : Frame).payload.length ≤
        240 := by decide

/-- The lawful state that the statements about every step start from, with its one command. -/
def tickNext : State :=
  { State.reset with pending := [.timeBaseTick State.reset.pins] }

theorem witness_StepKeepsProgramStoreLaws :
    StoreLaw tickNext ∧ step tickNext = .next (tick State.reset.pins State.reset) := by
  refine ⟨?_, rfl⟩
  decide

theorem witness_StepKeepsChannelLaws :
    (∀ c, ChannelLaw (tickNext.chan c)) ∧ PresetLaw tickNext ∧
      step tickNext = .next (tick State.reset.pins State.reset) := by
  refine ⟨?_, ?_, rfl⟩ <;> decide

theorem witness_StepKeepsLatchLaw :
    CutoffLaw tickNext ∧ step tickNext = .next (tick State.reset.pins State.reset) := by
  refine ⟨?_, rfl⟩
  decide

theorem witness_StepKeepsInputUnitLaws :
    step tickNext = .next (tick State.reset.pins State.reset) ∧ LineLaw tickNext.line ∧
      LogLaw tickNext.capture ∧ RouteLaw tickNext ∧ ∀ i, InputLaw (tickNext.input i) := by
  refine ⟨rfl, by decide, ?_, by decide, by decide⟩
  simp [LogLaw, tickNext, State.reset, Capture.init, InSequence]

theorem witness_StepKeepsLinkLaws :
    LinkLaw tickNext ∧ step tickNext = .next (tick State.reset.pins State.reset) := by
  refine ⟨?_, rfl⟩
  decide

theorem witness_StepKeepsReportQueueLaws :
    SessionLaw tickNext.session ∧
      step tickNext = .next (tick State.reset.pins State.reset) := by
  refine ⟨?_, rfl⟩
  simp [SessionLaw, QueueLaw, tickNext, State.reset, Session.init, NumberedTo,
    Session.unacknowledged]

end Sys2Proof.Tests
end

namespace Sys2Proof.Machine

/-! ## What the laws of the program store read -/

/-- All that the laws of the program store read of a state: the store, the session state and the
bindings of every channel. -/
def storeView (s : State) : Store × SessionState × (Fin 8 → Option Binding × Option Binding) :=
  (s.store, s.session.state, fun c => ((s.chan c).active, (s.chan c).pending))

theorem storeView_eq_iff {s t : State} :
    storeView t = storeView s ↔ t.store = s.store ∧ t.session.state = s.session.state ∧
      ∀ c, (t.chan c).active = (s.chan c).active ∧ (t.chan c).pending = (s.chan c).pending := by
  simp [storeView, funext_iff]

/-- How many of an optional binding name the program: 1 or 0 (R14). -/
def names (b : Option Binding) (q : Fin 32) : Nat := b.toList.countP fun b => b.program == q

@[simp] theorem names_none (q : Fin 32) : names none q = 0 := rfl

theorem naming_eq (ch : Channel) (q : Fin 32) :
    ch.naming q = names ch.active q + names ch.pending q := List.countP_append

theorem bindingsNaming_eq_sum (s : State) (q : Fin 32) :
    bindingsNaming s q = ∑ c, (s.chan c).naming q := by
  simp only [bindingsNaming, allChannels, List.map_cons, List.map_nil, List.sum_cons,
    List.sum_nil, Fin.sum_univ_eight]
  omega

/-- The laws of the store read nothing but the view. -/
theorem StoreLaw.of_view {s t : State} (hs : StoreLaw s) (hv : storeView t = storeView s) :
    StoreLaw t := by
  obtain ⟨hstore, hsession, hchan⟩ := storeView_eq_iff.mp hv
  have hprog : ∀ q, t.prog q = s.prog q := fun q => by simp [State.prog, hstore]
  have hheld : stepsHeld t = stepsHeld s := by simp [stepsHeld, hprog]
  have hnaming : ∀ q, bindingsNaming t q = bindingsNaming s q := fun q => by
    simp only [bindingsNaming, naming_eq, hchan]
  simp only [StoreLaw, PoolLaw, OpenLaw, UseLaw, hprog, hheld, hnaming, hchan, hstore, hsession]
  exact hs

/-! ## Sums over the programs -/

/-- A filtered sum as a sum over all, with 0 where the filter drops. -/
theorem sum_map_filter_eq {α : Type} (l : List α) (p : α → Bool) (f : α → Nat) :
    ((l.filter p).map f).sum = (l.map fun x => if p x = true then f x else 0).sum := by
  induction l with
  | nil => rfl
  | cons x l ih => by_cases h : p x <;> simp [h, ih]

theorem sum_allPrograms_filter (p : Fin 32 → Bool) (f : Fin 32 → Nat) :
    ((allPrograms.filter p).map f).sum = ∑ q, if p q = true then f q else 0 := by
  rw [sum_map_filter_eq, Fin.sum_univ_def]
  rfl

/-- Where the records keep their bounds, the steps held are the steps of all the records. -/
theorem stepsHeld_eq_sum {s : State} (h : ∀ q, RecordLaw (s.prog q)) :
    stepsHeld s = ∑ q, (s.prog q).steps.length := by
  rw [stepsHeld, sum_allPrograms_filter]
  refine Finset.sum_congr rfl fun q _ => ?_
  obtain ⟨hempty, _⟩ := h q
  by_cases he : (s.prog q).state = .empty
  · simp [hempty he, Program.none]
  · simp [he]

/-! ## Use counts under the law -/

theorem naming_le_bindingsNaming (s : State) (c : Fin 8) (q : Fin 32) :
    (s.chan c).naming q ≤ bindingsNaming s q := by
  rw [bindingsNaming_eq_sum]
  exact Finset.single_le_sum (f := fun c => (s.chan c).naming q) (fun _ _ => Nat.zero_le _)
    (Finset.mem_univ c)

/-- A program that no binding may name has the use count 0 (R14). -/
theorem bindingsNaming_eq_zero {s : State} {q : Fin 32}
    (hnamed : ∀ c, ∀ b ∈ (s.chan c).active.toList ++ (s.chan c).pending.toList,
      (s.prog b.program).state = .sealed) (hq : (s.prog q).state ≠ .sealed) :
    bindingsNaming s q = 0 := by
  rw [bindingsNaming_eq_sum]
  refine Finset.sum_eq_zero fun c _ => List.countP_eq_zero.mpr fun b hb he => hq ?_
  rw [← beq_iff_eq.mp he]
  exact hnamed c b hb

/-- A program that is not SEALED is not in use (R14). -/
theorem StoreLaw.useCount_eq_zero {s : State} (hs : StoreLaw s) {q : Fin 32}
    (hq : (s.prog q).state ≠ .sealed) : (s.prog q).useCount = 0 := by
  obtain ⟨_, _, _, hcount, hnamed⟩ := hs
  rw [hcount, bindingsNaming_eq_zero hnamed hq]

/-- Only one channel's bindings change: the bindings naming a program change by what they do. -/
theorem bindingsNaming_add_naming {s t : State} {c : Fin 8} (q : Fin 32)
    (h : ∀ d, d ≠ c → (t.chan d).naming q = (s.chan d).naming q) :
    bindingsNaming t q + (s.chan c).naming q = bindingsNaming s q + (t.chan c).naming q := by
  rw [bindingsNaming_eq_sum, bindingsNaming_eq_sum,
    ← Finset.add_sum_erase _ _ (Finset.mem_univ c),
    ← Finset.add_sum_erase (a := c) _ (fun c => (s.chan c).naming q) (Finset.mem_univ c)]
  have : ∑ d ∈ Finset.univ.erase c, (t.chan d).naming q =
      ∑ d ∈ Finset.univ.erase c, (s.chan d).naming q :=
    Finset.sum_congr rfl fun d hd => h d (Finset.ne_of_mem_erase hd)
  omega

/-! ## A channel's bindings change -/

/-- One channel's bindings change and the use counts move with them: the laws of the store are kept
when the bindings it then has name SEALED programs (R14). -/
theorem StoreLaw.rebind {s t : State} {c : Fin 8} {u : Fin 32 → Nat} (hs : StoreLaw s)
    (hfree : t.store.freeSlots = s.store.freeSlots)
    (hsession : t.session.state = s.session.state)
    (hprog : ∀ q, t.prog q = { s.prog q with useCount := u q })
    (huse : ∀ q, u q + (s.chan c).naming q = (s.prog q).useCount + (t.chan c).naming q)
    (hother : ∀ d, d ≠ c → t.chan d = s.chan d)
    (hsealed : ∀ b ∈ (t.chan c).active.toList ++ (t.chan c).pending.toList,
      (s.prog b.program).state = .sealed) : StoreLaw t := by
  obtain ⟨hpool, hrec, hopen, hcount, hnamed⟩ := hs
  have hnamed' : ∀ d, ∀ b ∈ (t.chan d).active.toList ++ (t.chan d).pending.toList,
      (t.prog b.program).state = .sealed := by
    intro d b hb
    rw [hprog]
    by_cases hd : d = c
    · subst hd; exact hsealed b hb
    · rw [hother d hd] at hb; exact hnamed d b hb
  have hcount' : ∀ q, (t.prog q).useCount = bindingsNaming t q := by
    intro q
    have hswap := bindingsNaming_add_naming (s := s) (t := t) (c := c) q
      fun d hd => by rw [hother d hd]
    have := huse q
    have := hcount q
    rw [hprog]
    show u q = _
    omega
  refine ⟨?_, fun q => ?_, ?_, hcount', hnamed'⟩
  · simp only [PoolLaw, stepsHeld, hprog, hfree]
    exact hpool
  · obtain ⟨hempty, hrest⟩ := hrec q
    refine ⟨fun he => ?_, by rw [hprog]; exact hrest⟩
    have hzero : u q = 0 := by
      have := hcount' q
      rw [bindingsNaming_eq_zero hnamed' (by rw [he]; decide), hprog] at this
      exact this
    rw [hprog] at he ⊢
    rw [hempty he, hzero]
    rfl
  · simp only [OpenLaw, hprog, hsession]
    exact hopen

theorem names_some (b : Binding) (q : Fin 32) :
    names (some b) q = if b.program = q then 1 else 0 := by
  simp [names, List.countP_cons]

theorem raiseUse_prog (s : State) (b : Binding) (q : Fin 32) :
    (raiseUse s b.program).prog q =
      { s.prog q with useCount := (s.prog q).useCount + names (some b) q } := by
  rw [raiseUse, setProg_prog, names_some]
  by_cases h : q = b.program
  · subst h; simp
  · simp [h, Ne.symm h]

theorem releaseUse_prog (s : State) (b : Option Binding) (q : Fin 32) :
    (releaseUse s b).prog q =
      { s.prog q with useCount := (s.prog q).useCount - names b q } := by
  cases b with
  | none => rfl
  | some b =>
    rw [releaseUse, lowerUse, setProg_prog, names_some]
    by_cases h : q = b.program
    · subst h; simp
    · simp [h, Ne.symm h]

/-! ## The view an operation leaves as it was -/

@[simp] theorem storeView_setChan (s : State) (c : Fin 8) (ch : Channel)
    (ha : ch.active = (s.chan c).active) (hp : ch.pending = (s.chan c).pending) :
    storeView (s.setChan c ch) = storeView s := by
  refine storeView_eq_iff.mpr ⟨rfl, rfl, fun d => ?_⟩
  rw [setChan_chan]
  split
  · next h => subst h; exact ⟨ha, hp⟩
  · exact ⟨rfl, rfl⟩

@[simp] theorem storeView_modChan (s : State) (c : Fin 8) (f : Channel → Channel)
    (ha : (f (s.chan c)).active = (s.chan c).active)
    (hp : (f (s.chan c)).pending = (s.chan c).pending) :
    storeView (s.modChan c f) = storeView s := storeView_setChan s c _ ha hp

theorem storeView_map (s : State) (f : Channel → Channel)
    (h : ∀ ch, (f ch).active = ch.active ∧ (f ch).pending = ch.pending) :
    storeView { s with channels := s.channels.map f } = storeView s :=
  storeView_eq_iff.mpr ⟨rfl, rfl, fun c => by simp [State.chan, h]⟩

@[simp] theorem storeView_submit (s : State) (b : ReportBody) :
    storeView (submit s b) = storeView s :=
  storeView_eq_iff.mpr ⟨rfl, by simp, fun _ => ⟨rfl, rfl⟩⟩

theorem storeView_foldl {α : Type} (f : State → α → State) (l : List α)
    (h : ∀ s a, storeView (f s a) = storeView s) (s : State) :
    storeView (l.foldl f s) = storeView s := by
  induction l generalizing s with
  | nil => rfl
  | cons a l ih => rw [List.foldl_cons, ih, h]

/-! ### The engine -/

@[simp] theorem storeView_submitMissed (s : State) (r : MissedReport) :
    storeView (submitMissed s r) = storeView s := by simp [submitMissed]

@[simp] theorem storeView_dropHeads (s : State) (c : Fin 8) (cause : MissedCause)
    (p : Entry → Bool) : storeView (dropHeads s c cause p) = storeView s := by
  unfold dropHeads
  rw [storeView_foldl _ _ fun s e => by simp [loseEntry]]
  simp

@[simp] theorem storeView_flushQueue (s : State) (c : Fin 8) (cause : MissedCause) :
    storeView (flushQueue s c cause) = storeView s := by
  unfold flushQueue
  split <;> simp

@[simp] theorem storeView_beginStep (s : State) (c : Fin 8) (b : Binding) (f : Firing) (i : Nat)
    (p : Word) : storeView (beginStep s c b f i p) = storeView s := by simp [beginStep]

@[simp] theorem storeView_startFiring (s : State) (c : Fin 8) (b : Binding) (e : Entry) (p : Word) :
    storeView (startFiring s c b e p) = storeView s := by simp [startFiring]

@[simp] theorem storeView_startPass (s : State) (c : Fin 8) (b : Binding) (p : Word) :
    storeView (startPass s c b p) = storeView s := by simp [startPass]

@[simp] theorem storeView_clearFiring (s : State) (c : Fin 8) :
    storeView (clearFiring s c) = storeView s := by simp [clearFiring]

theorem countOutcome_bindings (o : FiringOutcome) (ch : Channel) :
    (countOutcome o ch).active = ch.active ∧ (countOutcome o ch).pending = ch.pending := by
  cases o <;> exact ⟨rfl, rfl⟩

@[simp] theorem storeView_endFiring (s : State) (c : Fin 8) (f : Firing) (e : Word)
    (o : FiringOutcome) : storeView (endFiring s c f e o) = storeView s := by
  unfold endFiring
  split <;> simp [countOutcome_bindings]

@[simp] theorem storeView_leaveService (s : State) (c : Fin 8) (cause : OffCause) :
    storeView (leaveService s c cause) = storeView s := by simp [leaveService]

@[simp] theorem storeView_restAfterFiring (s : State) (c : Fin 8) :
    storeView (restAfterFiring s c) = storeView s := by
  unfold restAfterFiring
  split <;> simp

@[simp] theorem storeView_examineQueue (s : State) (c : Fin 8) (b : Binding) (e : Word) :
    storeView (examineQueue s c b e) = storeView s := by
  unfold examineQueue
  dsimp only
  split
  · simp
  · split <;> simp

@[simp] theorem storeView_dueWhileRunning (s : State) (c : Fin 8) (b : Binding) :
    storeView (dueWhileRunning s c b) = storeView s := by
  unfold dueWhileRunning
  split <;> simp

@[simp] theorem storeView_handleDue (s : State) (c : Fin 8) :
    storeView (handleDue s c) = storeView s := by
  unfold handleDue
  dsimp only
  split
  · split
    · split
      · split <;> simp
      · split <;> simp
    · rfl
  · rfl

@[simp] theorem storeView_createEntry (s : State) (c : Fin 8) (source : Source)
    (trigger due : Word) : storeView (createEntry s c source trigger due) = storeView s := by
  unfold createEntry
  dsimp only
  split <;> simp

@[simp] theorem storeView_refuseTrigger (s : State) (c : Fin 8) (t : Trigger)
    (cause : MissedCause) : storeView (refuseTrigger s c t cause) = storeView s := by
  unfold refuseTrigger
  dsimp only
  split
  · exact storeView_submitMissed _ _
  · exact storeView_submitMissed _ _

@[simp] theorem storeView_takeTrigger (s : State) (c : Fin 8) (t : Trigger) :
    storeView (takeTrigger s c t) = storeView s := by
  unfold takeTrigger acceptTrigger
  dsimp only
  repeat' split
  all_goals simp

theorem takePreset_bindings (k : Word) (ch : Channel) :
    (takePreset k ch).active = ch.active ∧ (takePreset k ch).pending = ch.pending := by
  unfold takePreset
  dsimp only
  split <;> exact ⟨rfl, rfl⟩

/-! ### The arbiter, the link and the log -/

theorem lossCheck_state (se : Session) : se.lossCheck.state = se.state := by
  unfold Session.lossCheck
  split <;> rfl

theorem moveCaptures_state (n : Nat) (time line : Word) (cap : Capture) (se : Session) :
    (moveCaptures n time line cap se).2.state = se.state := by
  induction n generalizing cap se with
  | zero => rfl
  | succ n ih =>
    unfold moveCaptures
    split
    · split
      · rfl
      · dsimp only
        split
        · rw [ih]; exact lossCheck_state se
        · exact lossCheck_state se
    · rfl

@[simp] theorem storeView_tryMoves (s : State) : storeView (tryMoves s) = storeView s :=
  storeView_eq_iff.mpr ⟨rfl, moveCaptures_state _ _ _ _ _, fun _ => ⟨rfl, rfl⟩⟩

@[simp] theorem storeView_sendReport (s : State) (carry : Int) :
    storeView (sendReport s carry) = storeView s := by
  unfold sendReport
  split <;> rfl

@[simp] theorem storeView_arbitrateCarry (s : State) (carry : Int) :
    storeView (arbitrateCarry s carry) = storeView s := by
  unfold arbitrateCarry
  split
  · rfl
  · split
    · unfold sendReply; split <;> rfl
    · simp

@[simp] theorem storeView_arbitrate (s : State) : storeView (arbitrate s) = storeView s :=
  storeView_arbitrateCarry s 0

@[simp] theorem storeView_concludeRequest (r : Request) (f : Frame) (s : State) :
    storeView (concludeRequest r f s) = storeView s := by
  unfold concludeRequest arbitrateEither
  dsimp only
  split
  · split
    · rw [storeView_sendReport]; rfl
    · rw [storeView_arbitrate]; rfl
  · rw [storeView_arbitrate]; rfl

@[simp] theorem storeView_acceptFrame (s : State) (r : Request) :
    storeView (acceptFrame s r) = storeView s := by
  have hr : storeView (restartSilence s) = storeView s := by
    unfold restartSilence; split <;> rfl
  have hq : ∀ u, storeView (enqueueRequest u r) = storeView u := fun u => by
    unfold enqueueRequest; split <;> rfl
  have hp : ∀ u e, storeView (repeatReply u e) = storeView u := fun u e => by
    unfold repeatReply; split
    · rfl
    · split <;> rfl
  unfold acceptFrame
  dsimp only
  split
  · split
    · rw [hp, hr]
    · split
      · exact hr
      · rw [hq, hr]
  · rw [hq, hr]

@[simp] theorem storeView_receive (b : Byte) (s : State) :
    storeView (receive b s) = storeView s := by
  unfold receive
  split
  · split <;> rfl
  · split <;> rfl
  · rfl
  · rfl
  · rw [storeView_arbitrate]
    unfold judgeFrame
    split
    · rfl
    · split
      · rw [storeView_acceptFrame]; rfl
      · rfl

/-! ### The line and the capture inputs -/

@[simp] theorem storeView_riseLine (s : State) : storeView (riseLine s) = storeView s := by
  unfold riseLine
  dsimp only
  split
  · rw [storeView_submit]; rfl
  · rfl

@[simp] theorem storeView_stallLine (s : State) : storeView (stallLine s) = storeView s := by
  unfold stallLine handStallNotices
  rw [storeView_map, storeView_submit]
  · rfl
  · intro ch; split <;> exact ⟨rfl, rfl⟩

@[simp] theorem storeView_applyLineSettings (s : State) :
    storeView (applyLineSettings s) = storeView s := by
  have hf : ∀ u, storeView (applyLineFilter u) = storeView u := fun u => by
    unfold applyLineFilter
    split
    · exact storeView_riseLine u
    · rfl
    · rfl
  have hl : ∀ u, storeView (applyStallLimit u) = storeView u := fun u => by
    unfold applyStallLimit
    split
    · rfl
    · split
      · exact storeView_stallLine u
      · rfl
  unfold applyLineSettings
  dsimp only
  split
  · split
    · rw [hl, hf]; rfl
    · rw [hf, hl]; rfl
  · rw [hl, hf]

@[simp] theorem storeView_presetLine (v : Word) (s : State) :
    storeView (presetLine v s) = storeView s := by
  unfold presetLine handPreset
  rw [storeView_map]
  · rfl
  · intro ch; split <;> exact ⟨rfl, rfl⟩

@[simp] theorem storeView_logEvent (s : State) (i : Fin 4) (l : Logged) :
    storeView (logEvent s i l) = storeView s := by
  unfold logEvent
  dsimp only
  split
  · rfl
  · rw [storeView_tryMoves]; rfl

@[simp] theorem storeView_acceptEdge (s : State) (i : Fin 4) (level : Level) :
    storeView (acceptEdge s i level) = storeView s := by
  have hd : ∀ e u id, storeView (deliverRoute i e u id) = storeView u := fun e u id => by
    unfold deliverRoute
    split
    · split <;> simp
    · rfl
  have ho : ∀ e u c, storeView (offerEdge i e u c) = storeView u := fun e u c => by
    unfold offerEdge
    split
    · split <;> simp
    · rfl
  unfold acceptEdge
  dsimp only
  rw [storeView_foldl _ _ (ho _), storeView_foldl _ _ (hd _)]
  split
  · rw [storeView_logEvent]; rfl
  · rfl

@[simp] theorem storeView_tick (pins : Pins) (s : State) :
    storeView (tick pins s) = storeView s := by
  unfold tick
  dsimp only
  split <;> rfl

/-! ## Bindings applied, discarded, installed, removed and staged -/

/-- The form in which a request or an engine changes a channel's bindings: use counts first, then
the channel's record (R14). -/
theorem StoreLaw.setChan {s v : State} {c : Fin 8} {ch : Channel} (u : Fin 32 → Nat)
    (hs : StoreLaw s) (hchan : v.channels = s.channels)
    (hsession : v.session.state = s.session.state)
    (hfree : v.store.freeSlots = s.store.freeSlots)
    (hprog : ∀ q, v.prog q = { s.prog q with useCount := u q })
    (huse : ∀ q, names (s.chan c).active q + names (s.chan c).pending q ≤ (s.prog q).useCount →
      u q + (names (s.chan c).active q + names (s.chan c).pending q) =
        (s.prog q).useCount + (names ch.active q + names ch.pending q))
    (hsealed : ∀ b, ch.active = some b ∨ ch.pending = some b →
      (s.prog b.program).state = .sealed) : StoreLaw (v.setChan c ch) := by
  have hle : ∀ q, names (s.chan c).active q + names (s.chan c).pending q ≤
      (s.prog q).useCount := fun q => by
    obtain ⟨_, _, _, hcount, _⟩ := hs
    rw [← naming_eq, hcount]
    exact naming_le_bindingsNaming s c q
  refine hs.rebind (c := c) (u := u) hfree hsession hprog (fun q => ?_) (fun d hd => ?_)
    fun b hb => ?_
  · rw [setChan_chan_same, naming_eq, naming_eq]
    exact huse q (hle q)
  · rw [setChan_chan_ne _ _ hd]
    simp [State.chan, hchan]
  · rw [setChan_chan_same, List.mem_append, Option.mem_toList, Option.mem_toList] at hb
    exact hsealed b hb

/-- A binding of a channel names a SEALED program (R14). -/
theorem StoreLaw.sealed_of_bound {s : State} (hs : StoreLaw s) {c : Fin 8} {b : Binding}
    (hb : (s.chan c).active = some b ∨ (s.chan c).pending = some b) :
    (s.prog b.program).state = .sealed := by
  obtain ⟨_, _, _, _, hnamed⟩ := hs
  refine hnamed c b ?_
  rwa [List.mem_append, Option.mem_toList, Option.mem_toList]

/-- A pending binding that becomes active releases the active one (R14, R78). -/
theorem StoreLaw.applyPending {s : State} (hs : StoreLaw s) (c : Fin 8) :
    StoreLaw (applyPending s c) := by
  unfold Machine.applyPending
  split
  · exact hs
  · next b hp =>
    refine StoreLaw.of_view ?_ (storeView_submit _ _)
    refine hs.setChan (fun q => (s.prog q).useCount - names (s.chan c).active q) (by simp)
      (by simp) (by simp) (releaseUse_prog _ _) (fun q hq => ?_) (fun b' hb => ?_)
    · simp only [hp, names_none] at hq ⊢
      omega
    · obtain rfl : b = b' := by simpa using hb
      exact hs.sealed_of_bound (.inr hp)

/-- A pending binding that is discarded is released (R14, R81). -/
theorem StoreLaw.discardPending {s : State} (hs : StoreLaw s) (c : Fin 8) :
    StoreLaw (discardPending s c) := by
  refine hs.setChan (fun q => (s.prog q).useCount - names (s.chan c).pending q) (by simp)
    (by simp) (by simp) (releaseUse_prog _ _) (fun q hq => ?_) (fun b hb => ?_)
  · simp only [releaseUse_chan, names_none] at hq ⊢
    omega
  · exact hs.sealed_of_bound (.inl (by simpa using hb))

/-- A binding installed is counted, and the one it replaces released (R14, R75). -/
theorem StoreLaw.installBinding {s : State} (hs : StoreLaw s) (c : Fin 8) {b : Binding}
    (hb : (s.prog b.program).state = .sealed) : StoreLaw (installBinding s c b) := by
  have key : StoreLaw ((releaseUse (raiseUse s b.program) (s.chan c).active).modChan c fun ch =>
      { ch with active := some b, output := b.idle }) := by
    refine hs.setChan
      (fun q => (s.prog q).useCount + names (some b) q - names (s.chan c).active q) (by simp)
      (by simp) (by simp) (fun q => ?_) (fun q hq => ?_) (fun b' hb' => ?_)
    · rw [releaseUse_prog, raiseUse_prog]
    · simp only [releaseUse_chan, raiseUse_chan] at hq ⊢
      omega
    · rcases hb' with hb' | hb'
      · obtain rfl : b = b' := by simpa using hb'
        exact hb
      · exact hs.sealed_of_bound (.inr (by simpa using hb'))
  unfold Machine.installBinding
  dsimp only
  split
  · exact key.of_view (storeView_modChan _ _ _ rfl rfl)
  · exact key

/-- A binding removed is released (R14, R75). -/
theorem StoreLaw.removeBinding {s : State} (hs : StoreLaw s) (c : Fin 8) :
    StoreLaw (removeBinding s c) := by
  refine hs.setChan (fun q => (s.prog q).useCount - names (s.chan c).active q) (by simp)
    (by simp) (by simp) (releaseUse_prog _ _) (fun q hq => ?_) (fun b hb => ?_)
  · simp only [releaseUse_chan, names_none] at hq ⊢
    omega
  · exact hs.sealed_of_bound (.inr (by simpa using hb))

/-- A binding staged is counted, and the pending one it replaces released (R14, R76, R80). -/
theorem StoreLaw.stageBinding {s : State} (hs : StoreLaw s) (c : Fin 8) {b : Binding}
    (hb : (s.prog b.program).state = .sealed) : StoreLaw (stageBinding s c b) := by
  have key : StoreLaw ((releaseUse (raiseUse s b.program) (s.chan c).pending).modChan c fun ch =>
      { ch with pending := some b }) := by
    refine hs.setChan
      (fun q => (s.prog q).useCount + names (some b) q - names (s.chan c).pending q) (by simp)
      (by simp) (by simp) (fun q => ?_) (fun q hq => ?_) (fun b' hb' => ?_)
    · rw [releaseUse_prog, raiseUse_prog]
    · simp only [releaseUse_chan, raiseUse_chan] at hq ⊢
      omega
    · rcases hb' with hb' | hb'
      · exact hs.sealed_of_bound (.inl (by simpa using hb'))
      · obtain rfl : b = b' := by simpa using hb'
        exact hb
  unfold Machine.stageBinding
  dsimp only
  split
  · exact (key.applyPending c).of_view (storeView_modChan _ _ _ rfl rfl)
  · exact key

/-- A channel re-initialised releases both its bindings (R17, R48). -/
theorem StoreLaw.restartChannel {s : State} (hs : StoreLaw s) (c : Fin 8) :
    StoreLaw (restartChannel s c) := by
  refine hs.setChan (fun q => (s.prog q).useCount - names (s.chan c).active q -
    names (s.chan c).pending q) (by simp [releaseBindings]) (by simp [releaseBindings])
    (by simp [releaseBindings]) (fun q => ?_) (fun q hq => ?_) (fun b hb => ?_)
  · rw [releaseBindings, releaseUse_prog, releaseUse_prog]
  · simp only [Channel.init, names_none]
    omega
  · simp [Channel.init] at hb

/-! ## The engine -/

theorem StoreLaw.foldl {α : Type} {f : State → α → State} (l : List α)
    (h : ∀ s a, StoreLaw s → StoreLaw (f s a)) {s : State} (hs : StoreLaw s) :
    StoreLaw (l.foldl f s) := by
  induction l generalizing s with
  | nil => exact hs
  | cons a l ih => exact ih (h s a hs)

theorem storeView_abortFiring (s : State) (c : Fin 8) (o : FiringOutcome) :
    storeView (abortFiring s c o) = storeView s := by
  unfold abortFiring
  split
  · rfl
  · exact storeView_endFiring _ _ _ _ _

theorem StoreLaw.haltChannel {s : State} (hs : StoreLaw s) (c : Fin 8) :
    StoreLaw (haltChannel s c) := by
  have h := ((hs.of_view (storeView_abortFiring s c .abortedHalt)).of_view
    (storeView_flushQueue _ c .halted)).discardPending c
  exact h.of_view (storeView_modChan _ _ _ rfl rfl)

theorem StoreLaw.forceChannel {s : State} (hs : StoreLaw s) (c : Fin 8) :
    StoreLaw (forceChannel s c) := by
  have h := ((hs.of_view (storeView_abortFiring s c .abortedCutoff)).of_view
    (storeView_flushQueue _ c .cutoff)).discardPending c
  exact h.of_view (storeView_modChan _ _ _ rfl rfl)

theorem StoreLaw.examineEnd {s : State} (hs : StoreLaw s) (c : Fin 8) (e : Word) :
    StoreLaw (examineEnd s c e) := by
  unfold Machine.examineEnd
  dsimp only
  split
  · exact hs.applyPending c
  · exact (hs.applyPending c).of_view (storeView_examineQueue _ _ _ _)

theorem StoreLaw.wrapPoint {s : State} (hs : StoreLaw s) (c : Fin 8) (b : Binding) (f : Firing)
    (target : Option Nat) (e : Word) : StoreLaw (wrapPoint s c b f target e) := by
  unfold Machine.wrapPoint
  dsimp only
  split
  · exact (hs.applyPending c).of_view (by simp)
  · split
    · exact (hs.applyPending c).of_view (storeView_startPass _ _ _ _)
    · exact hs.of_view (storeView_beginStep _ _ _ _ _ _)
    · exact hs.of_view (storeView_startPass _ _ _ _)

theorem StoreLaw.jumpToLoop {s : State} (hs : StoreLaw s) (c : Fin 8) (b : Binding) (f : Firing)
    (e : Word) : StoreLaw (jumpToLoop s c b f e) := by
  unfold Machine.jumpToLoop
  dsimp only
  split
  · exact hs.of_view (storeView_beginStep _ _ _ _ _ _)
  · exact hs.wrapPoint c b f _ e

theorem StoreLaw.endStep {s : State} (hs : StoreLaw s) (c : Fin 8) (b : Binding) (f : Firing)
    (e : Word) : StoreLaw (endStep s c b f e) := by
  unfold Machine.endStep
  dsimp only
  split
  · exact hs.of_view (storeView_beginStep _ _ _ _ _ _)
  · split
    · exact hs.jumpToLoop c b f e
    · split
      · exact hs.jumpToLoop c b _ e
      · split
        · exact (hs.of_view (storeView_endFiring _ _ _ _ _)).examineEnd c e
        · exact hs.wrapPoint c b f none e

theorem StoreLaw.takeOffer {s : State} (hs : StoreLaw s) (c : Fin 8) (o : Offer) :
    StoreLaw (takeOffer s c o) := by
  unfold Machine.takeOffer
  split
  · exact hs.endStep c _ _ _
  · exact hs

theorem StoreLaw.actOnStall {s : State} (hs : StoreLaw s) (c : Fin 8) :
    StoreLaw (actOnStall s c) := by
  unfold Machine.actOnStall
  dsimp only
  split
  · split
    · split
      · exact (hs.of_view (storeView_endFiring _ _ _ _ _)).examineEnd c _
      · exact ((hs.of_view (storeView_clearFiring _ c)).discardPending c).of_view
          (storeView_leaveService _ _ _)
    · exact hs
  · exact hs

/-! ## The cutoff -/

theorem StoreLaw.forceMember {s : State} (hs : StoreLaw s) (c : Fin 8) :
    StoreLaw (forceMember s c) := by
  unfold Machine.forceMember
  split
  · exact hs.forceChannel c
  · exact hs

theorem StoreLaw.forceMembers {s : State} (hs : StoreLaw s) : StoreLaw (forceMembers s) := by
  unfold Machine.forceMembers
  exact StoreLaw.foldl allChannels (fun _ c hu => hu.forceMember c) hs

theorem StoreLaw.trip {s : State} (hs : StoreLaw s) (cause : CutoffCause) :
    StoreLaw (trip s cause) := by
  have key : ∀ k b, StoreLaw (submit { s with cutoff := k } b) := fun k b =>
    hs.of_view (by rw [storeView_submit]; rfl)
  unfold Machine.trip
  dsimp only
  split
  · exact (key _ _).forceMembers
  · split
    · exact hs
    · exact key _ _

theorem storeView_releaseCutoff (s : State) : storeView (releaseCutoff s) = storeView s := by
  unfold releaseCutoff
  rw [storeView_submit]
  exact storeView_map { s with cutoff := _ } releaseForced fun ch => by
    unfold releaseForced; split <;> exact ⟨rfl, rfl⟩

/-! ## The OPEN program is discarded -/

/-- The OPEN program's slots go back to the pool, and no program is OPEN (R4, R16). -/
theorem StoreLaw.of_openDiscarded {s t : State} (hs : StoreLaw s) (h : OpenDiscarded s t)
    (hchan : t.channels = s.channels) : StoreLaw t := by
  obtain ⟨hprog, hfree⟩ := h
  have hzero : ∀ q, (s.prog q).state = .opened → bindingsNaming s q = 0 := fun q hq => by
    obtain ⟨_, _, _, _, hnamed⟩ := hs
    exact bindingsNaming_eq_zero hnamed (by rw [hq]; decide)
  obtain ⟨hpool, hrec, hopen, hcount, hnamed⟩ := hs
  have hrec' : ∀ q, RecordLaw (t.prog q) := fun q => by
    rw [hprog]
    split
    · decide
    · exact hrec q
  have hclosed : ∀ q, (t.prog q).state ≠ .opened := fun q => by
    rw [hprog]
    split
    · decide
    · assumption
  have hnaming : ∀ q, bindingsNaming t q = bindingsNaming s q := fun q => by
    simp [bindingsNaming, State.chan, hchan]
  refine ⟨?_, hrec', ⟨fun p _ hp _ => absurd hp (hclosed p), fun _ => hclosed⟩, fun q => ?_,
    fun c b hb => ?_⟩
  · have hsum : ∑ q, (s.prog q).steps.length = ∑ q, ((t.prog q).steps.length +
        if ((s.prog q).state == .opened) = true then (s.prog q).steps.length else 0) := by
      refine Finset.sum_congr rfl fun q _ => ?_
      rw [hprog]
      by_cases hq : (s.prog q).state = .opened <;> simp [hq, Program.none]
    rw [PoolLaw, stepsHeld_eq_sum hrec, hsum, Finset.sum_add_distrib] at hpool
    rw [PoolLaw, stepsHeld_eq_sum hrec', hfree, sum_allPrograms_filter]
    omega
  · rw [hprog, hnaming]
    split
    · next hq => rw [hzero q hq]; rfl
    · exact hcount q
  · simp only [State.chan, hchan] at hb
    have hsealed := hnamed c b hb
    rw [hprog, if_neg (by rw [hsealed]; decide)]
    exact hsealed

theorem StoreLaw.discardOpen {s : State} (hs : StoreLaw s) : StoreLaw (discardOpen s) := by
  obtain ⟨hd, heq⟩ := discardOpen_spec s _ rfl
  exact hs.of_openDiscarded hd (by rw [heq])

/-- A session close keeps the laws: no program is OPEN after it (R16, R159). -/
theorem StoreLaw.closeSession {s : State} (hs : StoreLaw s) (cause : CloseCause) :
    StoreLaw (closeSession s cause) := by
  obtain ⟨hd, heq⟩ := closeSession_spec s _ cause rfl
  exact hs.of_openDiscarded hd (by rw [heq])

theorem StoreLaw.openSession {s : State} (hs : StoreLaw s) (silence resend : Half)
    (mask : ReportMask) : StoreLaw (openSession s silence resend mask) := by
  have key : ∀ u : State, StoreLaw u → StoreLaw { u with
      session := u.session.openNew s.timeBase silence resend mask
      link := { u.link with cache := [] } } := fun u hu => by
    obtain ⟨hpool, hrec, ⟨hone, _⟩, huse⟩ := hu
    exact ⟨hpool, hrec, ⟨hone, fun h => by cases h⟩, huse⟩
  unfold Machine.openSession
  dsimp only
  split
  · exact key _ (hs.closeSession .reopen)
  · exact key _ hs

theorem storeView_restartLink (s : State) : storeView (restartLink s) = storeView s := rfl

theorem storeView_restartUnits (s : State) : storeView (restartUnits s) = storeView s := rfl

theorem StoreLaw.closeForRestart {s : State} (hs : StoreLaw s) : StoreLaw (closeForRestart s) := by
  unfold Machine.closeForRestart
  split
  · exact hs.closeSession .restart
  · exact hs

theorem StoreLaw.restartChannels {s : State} (hs : StoreLaw s) : StoreLaw (restartChannels s) :=
  StoreLaw.foldl allChannels (fun _ c hu => hu.restartChannel c) hs

theorem StoreLaw.forceWhenTripped {s : State} (hs : StoreLaw s) :
    StoreLaw (forceWhenTripped s) := by
  unfold Machine.forceWhenTripped
  split
  · exact StoreLaw.foldl allChannels (fun _ c hu => hu.forceChannel c) hs
  · exact hs

theorem StoreLaw.softReset {s : State} (hs : StoreLaw s) : StoreLaw (softReset s) := by
  have hlink := hs.closeForRestart.of_view (storeView_restartLink _)
  unfold Machine.softReset
  exact (hlink.discardOpen.restartChannels.of_view (storeView_restartUnits _)).forceWhenTripped

theorem StoreLaw.endTransmission {s : State} (hs : StoreLaw s) (left : Int) :
    StoreLaw (endTransmission s left) := by
  have hidle : ∀ l, StoreLaw { s with link := l } := fun l => hs.of_view rfl
  unfold Machine.endTransmission
  dsimp only
  split
  · exact (hidle _).softReset
  · exact (hidle _).of_view (storeView_arbitrateCarry _ _)

theorem StoreLaw.endStartUp {s : State} (hs : StoreLaw s) : StoreLaw (endStartUp s) := by
  have key : ∀ b l n k, StoreLaw { s with startUp := b, link := l, line := n, cutoff := k } :=
    fun b l n k => hs.of_view rfl
  unfold Machine.endStartUp
  dsimp only
  split
  · exact (key _ _ _ _).trip .pin
  · exact key _ _ _ _

/-! ## One record of the table changes -/

/-- One program's record becomes `p`, its slots with it, and the program stays SEALED if it is in
use: the laws are kept when `p` is lawful and, if OPEN, the only OPEN one (R1, R4, R7, R14). -/
theorem StoreLaw.of_record {s t : State} {q : Fin 32} {p : Program} (hs : StoreLaw s)
    (hchan : t.channels = s.channels) (hsession : t.session = s.session)
    (hprog : ∀ r, t.prog r = if r = q then p else s.prog r)
    (hfree : t.store.freeSlots + p.steps.length = s.store.freeSlots + (s.prog q).steps.length)
    (hnew : RecordLaw p) (huse : p.useCount = (s.prog q).useCount)
    (hsealed : (s.prog q).useCount ≠ 0 → p.state = .sealed)
    (hopen : p.state = .opened →
      s.session.state ≠ .closed ∧ ∀ r, (s.prog r).state = .opened → r = q) : StoreLaw t := by
  obtain ⟨hpool, hrec, ⟨hone, hclosed⟩, hcount, hnamed⟩ := hs
  have hq : t.prog q = p := by simp [hprog]
  have hother : ∀ r, r ≠ q → t.prog r = s.prog r := fun r hr => by simp [hprog, hr]
  have hrec' : ∀ r, RecordLaw (t.prog r) := fun r => by
    rw [hprog]
    split
    · exact hnew
    · exact hrec r
  have hnaming : ∀ r, bindingsNaming t r = bindingsNaming s r := fun r => by
    simp [bindingsNaming, State.chan, hchan]
  have hopened : ∀ r, (t.prog r).state = .opened →
      (r = q ∧ p.state = .opened) ∨ (s.prog r).state = .opened := fun r hr => by
    rw [hprog] at hr
    split at hr
    · exact .inl ⟨‹_›, hr⟩
    · exact .inr hr
  refine ⟨?_, hrec', ⟨fun a b ha hb => ?_, fun hc r hr => ?_⟩, fun r => ?_, fun c b hb => ?_⟩
  · rw [PoolLaw, stepsHeld_eq_sum hrec, ← Finset.add_sum_erase _ _ (Finset.mem_univ q)] at hpool
    have : ∑ r ∈ Finset.univ.erase q, (t.prog r).steps.length =
        ∑ r ∈ Finset.univ.erase q, (s.prog r).steps.length :=
      Finset.sum_congr rfl fun r hr => by rw [hother r (Finset.ne_of_mem_erase hr)]
    rw [PoolLaw, stepsHeld_eq_sum hrec', ← Finset.add_sum_erase _ _ (Finset.mem_univ q), hq]
    omega
  · rcases hopened a ha with ⟨rfl, hp⟩ | ha <;> rcases hopened b hb with ⟨rfl, hp'⟩ | hb
    · rfl
    · exact ((hopen hp).2 b hb).symm
    · exact (hopen hp').2 a ha
    · exact hone a b ha hb
  · rw [hsession] at hc
    rcases hopened r hr with ⟨_, hp⟩ | hr
    · exact (hopen hp).1 hc
    · exact hclosed hc r hr
  · rw [hnaming, ← hcount, hprog]
    split
    · next h => rw [huse, h]
    · rfl
  · simp only [State.chan, hchan] at hb
    rw [hprog]
    split
    · next h =>
      refine hsealed ?_
      have hpos : 0 < (s.chan c).naming b.program :=
        List.countP_pos_iff.mpr ⟨b, hb, beq_self_eq_true _⟩
      have := naming_le_bindingsNaming s c b.program
      rw [hcount, ← h]
      omega
    · exact hnamed c b hb

/-- A record emptied that is not in use (R4, R10, R11). -/
theorem StoreLaw.emptyProgram {s : State} (hs : StoreLaw s) {q : Fin 32}
    (huse : (s.prog q).useCount = 0) : StoreLaw (emptyProgram s q) :=
  hs.of_record rfl rfl (emptyProgram_prog s q) rfl (by decide) huse.symm
    (fun h => absurd huse h) (fun h => by cases h)

/-- No carried step that passes the step check has duration 0 (R8). -/
theorem stepOf_duration_ne {b0 b1 b2 d : Byte} {st : ProgStep} (h : stepOf b0 b1 b2 d = some st) :
    st.duration ≠ 0 := by
  unfold stepOf at h
  dsimp only at h
  split at h
  · cases h
  · next hd =>
    split at h
    · cases h; exact hd
    · split at h
      · cases h; exact hd
      · cases h
    · cases h

theorem stepsOf_duration_ne {position : Nat} {bytes : List Byte} {steps : List ProgStep}
    (h : stepsOf position bytes = .ok steps) : ∀ st ∈ steps, st.duration ≠ 0 := by
  fun_induction stepsOf position bytes generalizing steps with
  | case1 => cases h
  | case2 => cases h
  | case3 position b0 b1 b2 d rest st hst more hmore ih =>
    cases h
    intro x hx
    rcases List.mem_cons.mp hx with rfl | hx
    · exact stepOf_duration_ne hst
    · exact ih hmore x hx
  | case4 => cases h; simp

/-! ## The requests -/

/-- The execution of a request with this answer keeps the laws of the program store. -/
def KeepsStore (answer : State → List Byte → Answer × State) : Prop :=
  ∀ s payload, StoreLaw s → StoreLaw (answer s payload).2

theorem StoreLaw.serveRequest {s : State} {answer : State → List Byte → Answer × State}
    (hs : StoreLaw s) (k : Byte) (h : KeepsStore answer) : StoreLaw (serveRequest k answer s) := by
  unfold Machine.serveRequest takeRequest
  split
  · exact hs
  · next heq =>
    split at heq
    · cases heq
    · split at heq
      · cases heq
        refine StoreLaw.of_view (h _ _ ?_) (storeView_concludeRequest _ _ _)
        exact hs.of_view rfl
      · cases heq

theorem StoreLaw.execReject {s : State} (hs : StoreLaw s) :
    ∃ t, execReject s = .next t ∧ StoreLaw t := by
  refine ⟨_, rfl, ?_⟩
  unfold takeRequest
  split
  · exact hs
  · next heq =>
    split at heq
    · cases heq
    · split at heq
      · cases heq
        exact hs.of_view (storeView_concludeRequest _ _ _)
      · cases heq

theorem StoreLaw.inSession {s : State} {n : Nat} {k : Answer × State} (hs : StoreLaw s)
    (hk : StoreLaw k.2) : StoreLaw (inSession s n k).2 := by
  unfold Machine.inSession
  split
  · exact hs
  · exact hk

theorem StoreLaw.changeProgram {s : State} {id : Byte} {k : Fin 32 → Answer × State}
    (hs : StoreLaw s) (hk : s.session.state ≠ .closed → ∀ q, StoreLaw (k q).2) :
    StoreLaw (changeProgram s id k).2 := by
  unfold Machine.changeProgram
  split
  · exact hs
  · next ho =>
    split
    · exact hs
    · exact hk ho _

/-! ### The program store -/

theorem StoreLaw.defineProgram {s : State} (hs : StoreLaw s) (hopen : s.session.state ≠ .closed)
    (q : Fin 32) (start : Byte) (count : Half) :
    StoreLaw (defineProgram s q start count).2 := by
  unfold Machine.defineProgram
  split
  · exact hs
  split
  · exact hs
  split
  · exact hs
  next hstart hempty hnone =>
  have hempty : (s.prog q).state = .empty := not_not.mp hempty
  have hzero := hs.useCount_eq_zero (q := q) (by rw [hempty]; decide)
  have hsteps : (s.prog q).steps = [] := by
    obtain ⟨_, hrec, _⟩ := hs
    obtain ⟨hnone, _⟩ := hrec q
    rw [hnone hempty]
    rfl
  have hno : ∀ p, (s.prog p).state ≠ .opened := fun p hp => hnone
    (List.find?_isSome.mpr ⟨p, List.mem_finRange p, decide_eq_true hp⟩)
  refine hs.of_record rfl rfl (fun r => setProg_prog s q r _) (by simp [hsteps]) ?_
    hzero.symm (fun h => absurd hzero h) fun _ => ⟨hopen, fun r hr => absurd hr (hno r)⟩
  exact ⟨fun h => (by cases h), Nat.zero_le _, by dsimp only; omega, fun h => (by cases h),
    fun _ h => (by cases h)⟩

theorem StoreLaw.appendSteps {s : State} (hs : StoreLaw s) (q : Fin 32) (n : Byte)
    (bytes : List Byte) : StoreLaw (appendSteps s q n bytes).2 := by
  unfold Machine.appendSteps
  dsimp only
  split
  · exact hs
  split
  · exact hs
  next steps hsteps =>
  split
  · exact hs
  split
  · exact hs
  split
  · exact hs
  next hstate hroom hfree =>
  have hstate : (s.prog q).state = .opened := not_not.mp hstate
  have hzero := hs.useCount_eq_zero (q := q) (by rw [hstate]; decide)
  have ⟨_, hrec, ⟨hone, hclosed⟩, _⟩ := hs
  obtain ⟨_, _, hstart, _, hdur⟩ := hrec q
  refine hs.of_record rfl rfl (fun r => setProg_prog s q r _) ?_ ?_ rfl
    (fun h => absurd hzero h) fun _ => ⟨fun h => hclosed h q hstate, fun r hr => hone r q hr hstate⟩
  · simp only [List.length_append]
    omega
  · refine ⟨fun h => absurd (hstate.symm.trans h) (by decide), ?_, hstart,
      fun h => absurd (hstate.symm.trans h) (by decide), fun st hst => ?_⟩
    · simpa [Config.stepsPerProgram] using hroom
    · rcases List.mem_append.mp hst with hst | hst
      · exact hdur st hst
      · exact stepsOf_duration_ne hsteps st hst

theorem StoreLaw.sealProgram {s : State} (hs : StoreLaw s) (q : Fin 32) :
    StoreLaw (sealProgram s q).2 := by
  unfold Machine.sealProgram
  dsimp only
  split
  · exact hs
  split
  · exact hs
  next hstate hloop =>
  have hstate : (s.prog q).state = .opened := not_not.mp hstate
  have hzero := hs.useCount_eq_zero (q := q) (by rw [hstate]; decide)
  have ⟨_, hrec, _⟩ := hs
  obtain ⟨_, hlen, hstart, _, hdur⟩ := hrec q
  exact hs.of_record rfl rfl (fun r => setProg_prog s q r _) rfl
    ⟨fun h => (by cases h), hlen, hstart, fun _ => by dsimp only; omega, hdur⟩ rfl
    (fun h => absurd hzero h) fun h => by cases h

theorem StoreLaw.discardProgram {s : State} (hs : StoreLaw s) (q : Fin 32) :
    StoreLaw (discardProgram s q).2 := by
  unfold Machine.discardProgram
  split
  · exact hs
  · next hstate =>
    exact hs.emptyProgram (hs.useCount_eq_zero (by rw [not_not.mp hstate]; decide))

theorem StoreLaw.deleteProgram {s : State} (hs : StoreLaw s) (q : Fin 32) :
    StoreLaw (deleteProgram s q).2 := by
  unfold Machine.deleteProgram
  split
  · exact hs
  split
  · exact hs
  next huse => exact hs.emptyProgram (not_not.mp huse)

/-! ### The answers -/

/-- An answer that moves nothing the laws read keeps them. -/
theorem keepsStore_of_view {answer : State → List Byte → Answer × State}
    (h : ∀ s payload, storeView (answer s payload).2 = storeView s) : KeepsStore answer :=
  fun s payload hs => hs.of_view (h s payload)

theorem keepsStore_channelRequest {n : Nat} {k : State → Fin 8 → Answer × State}
    (h : ∀ s c, StoreLaw s → StoreLaw (k s c).2) : KeepsStore (channelRequest n k) := by
  intro s payload hs
  unfold channelRequest
  split
  · refine hs.inSession ?_
    split
    · exact hs
    · exact h s _ hs
  · exact hs

theorem keepsStore_status : KeepsStore answerStatus := by
  refine keepsStore_of_view fun s payload => ?_
  unfold answerStatus
  split
  · split <;> rfl
  · rfl

theorem keepsStore_ident : KeepsStore answerIdent := by
  refine keepsStore_of_view fun s payload => ?_
  unfold answerIdent
  split <;> rfl

theorem keepsStore_restart : KeepsStore answerRestart := by
  refine keepsStore_of_view fun s payload => ?_
  unfold answerRestart
  split <;> rfl

theorem keepsStore_openSession : KeepsStore answerOpenSession := by
  intro s payload hs
  unfold answerOpenSession
  split
  · dsimp only
    split
    · exact hs
    split
    · exact hs
    split
    · exact hs
    · exact hs.openSession _ _ _
  · exact hs

theorem StoreLaw.quiesce {s : State} (hs : StoreLaw s) : StoreLaw (quiesce s) := by
  have key : ∀ u c, StoreLaw u → StoreLaw (quiesceChannel u c) := fun u c hu => by
    unfold quiesceChannel
    split
    · exact hu.haltChannel c
    · exact hu
  unfold Machine.quiesce
  exact StoreLaw.foldl allChannels key hs

theorem keepsStore_closeSession : KeepsStore answerCloseSession := by
  intro s payload hs
  unfold answerCloseSession
  split
  · refine hs.inSession ?_
    split
    · exact hs
    · dsimp only
      exact hs.quiesce.closeSession .request
    · dsimp only
      exact hs.closeSession .request
  · exact hs

theorem storeView_acknowledge (s : State) (n : Nat) :
    storeView (acknowledge s n) = storeView s := by
  unfold acknowledge
  rw [storeView_tryMoves]
  exact storeView_eq_iff.mpr ⟨rfl, lossCheck_state _, fun _ => ⟨rfl, rfl⟩⟩

theorem keepsStore_ackReports : KeepsStore answerAckReports := by
  intro s payload hs
  unfold answerAckReports
  split
  · refine hs.inSession ?_
    split
    · exact hs
    · exact hs.of_view (storeView_acknowledge s _)
  · exact hs

theorem keepsStore_cutoff : KeepsStore answerCutoff := by
  intro s payload hs
  unfold answerCutoff
  split
  · exact hs.trip .request
  · exact hs

theorem keepsStore_cutoffRelease : KeepsStore answerCutoffRelease := by
  intro s payload hs
  unfold answerCutoffRelease
  split
  · refine hs.inSession ?_
    split
    · exact hs
    split
    · exact hs
    · exact hs.of_view (storeView_releaseCutoff s)
  · exact hs

theorem storeView_setOptions (s : State) (c : Fin 8) (member : Bool) (safe : Level) :
    storeView (setOptions s c member safe).2 = storeView s := by
  unfold setOptions
  split
  · rfl
  split
  · rfl
  · exact storeView_modChan _ _ _ rfl rfl

theorem keepsStore_setChannelOptions : KeepsStore answerSetChannelOptions := by
  intro s payload hs
  unfold answerSetChannelOptions
  split
  · refine hs.inSession ?_
    split
    · exact hs
    split
    · exact hs.of_view (storeView_setOptions s _ _ _)
    · exact hs
  · exact hs

theorem keepsStore_defineProgram : KeepsStore answerDefineProgram := by
  intro s payload hs
  unfold answerDefineProgram
  split
  · exact hs.changeProgram fun ho q => hs.defineProgram ho q _ _
  · exact hs

theorem keepsStore_appendSteps : KeepsStore answerAppendSteps := by
  intro s payload hs
  unfold answerAppendSteps
  split
  · split
    · exact hs.changeProgram fun _ q => hs.appendSteps q _ _
    · exact hs
  · exact hs

theorem keepsStore_sealProgram : KeepsStore answerSealProgram := by
  intro s payload hs
  unfold answerSealProgram
  split
  · exact hs.changeProgram fun _ q => hs.sealProgram q
  · exact hs

theorem keepsStore_discardProgram : KeepsStore answerDiscardProgram := by
  intro s payload hs
  unfold answerDiscardProgram
  split
  · exact hs.changeProgram fun _ q => hs.discardProgram q
  · exact hs

theorem keepsStore_deleteProgram : KeepsStore answerDeleteProgram := by
  intro s payload hs
  unfold answerDeleteProgram
  split
  · exact hs.changeProgram fun _ q => hs.deleteProgram q
  · exact hs

theorem keepsStore_programInfo : KeepsStore answerProgramInfo := by
  intro s payload hs
  unfold answerProgramInfo
  split
  · refine hs.inSession ?_
    split <;> exact hs
  · exact hs

theorem keepsStore_programRead : KeepsStore answerProgramRead := by
  intro s payload hs
  unfold answerProgramRead
  split
  · refine hs.inSession ?_
    split <;> exact hs
  · exact hs

theorem StoreLaw.bindProgram {s : State} (hs : StoreLaw s) (c : Fin 8) (b : Binding) :
    StoreLaw (bindProgram s c b).2 := by
  unfold Machine.bindProgram
  dsimp only
  split
  · exact hs
  next hsealed =>
  split
  · exact hs
  split
  · exact hs
  split
  · exact hs.installBinding c (not_not.mp hsealed)
  split
  · exact hs
  · exact hs.stageBinding c (not_not.mp hsealed)

theorem StoreLaw.bindNothing {s : State} (hs : StoreLaw s) (c : Fin 8) :
    StoreLaw (bindNothing s c).2 := by
  unfold Machine.bindNothing
  split
  · exact hs
  · exact hs.removeBinding c
  · exact hs.discardPending c

theorem keepsStore_bind : KeepsStore answerBind := by
  intro s payload hs
  unfold answerBind
  split
  · refine hs.inSession ?_
    split
    · exact hs
    split
    · exact hs.bindNothing _
    split
    · exact hs
    split
    · exact hs
    · exact hs.bindProgram _ _
  · exact hs

theorem keepsStore_enable : KeepsStore (channelRequest 1 enableChannel) := by
  refine keepsStore_channelRequest fun s c hs => ?_
  unfold enableChannel
  dsimp only
  split
  · exact hs
  split
  · exact hs
  split
  · exact hs
  refine hs.of_view ?_
  split <;> simp

theorem keepsStore_stop : KeepsStore (channelRequest 1 stopChannel) := by
  refine keepsStore_channelRequest fun s c hs => hs.of_view ?_
  unfold stopChannel
  split <;> simp

theorem keepsStore_halt : KeepsStore (channelRequest 1 haltRequest) := by
  refine keepsStore_channelRequest fun s c hs => ?_
  unfold haltRequest
  split
  · exact hs
  split
  · exact hs.haltChannel c
  · exact hs

theorem storeView_fireChannel (s : State) (c : Fin 8) (tag : Half) (presence : Byte)
    (due : Word) : storeView (fireChannel s c tag presence due).2 = storeView s := by
  unfold fireChannel
  dsimp only
  split
  · rfl
  split
  · rfl
  split
  · rfl
  split
  · rfl
  split
  · rfl
  · exact storeView_createEntry _ _ _ _ _

theorem keepsStore_fire : KeepsStore answerFire := by
  intro s payload hs
  unfold answerFire
  split
  · refine hs.inSession ?_
    split
    · exact hs
    · exact hs.of_view (storeView_fireChannel _ _ _ _ _)
  · exact hs

theorem keepsStore_channelStatus :
    KeepsStore (channelRequest 38 fun s c => (channelStatus (s.chan c), s)) :=
  keepsStore_channelRequest fun _ _ hs => hs

theorem keepsStore_timebaseConfig : KeepsStore answerTimebaseConfig := by
  intro s payload hs
  unfold answerTimebaseConfig
  split
  · refine hs.inSession ?_
    split
    · exact hs
    dsimp only
    split
    · exact hs
    · exact hs.of_view (storeView_applyLineSettings _)
  · exact hs

theorem keepsStore_setLine : KeepsStore answerSetLine := by
  intro s payload hs
  unfold answerSetLine
  split
  · exact hs.inSession (hs.of_view (storeView_presetLine _ s))
  · exact hs

theorem keepsStore_readTime : KeepsStore answerReadTime := by
  intro s payload hs
  unfold answerReadTime
  split
  · exact hs.inSession hs
  · exact hs

theorem storeView_configureCapture (s : State) (i : Fin 4) (mode : CapMode) (logEdges : LogEdges)
    (filter : BitVec 4) : storeView (configureCapture s i mode logEdges filter) = storeView s := by
  unfold configureCapture
  dsimp only
  split
  · rw [storeView_acceptEdge]; rfl
  · rfl

theorem keepsStore_captureConfig : KeepsStore answerCaptureConfig := by
  intro s payload hs
  unfold answerCaptureConfig
  split
  · refine hs.inSession ?_
    split
    · exact hs
    split
    · exact hs.of_view (storeView_configureCapture s _ _ _ _)
    · exact hs
  · exact hs

theorem storeView_addRoute (s : State) (r : Route) :
    storeView (addRoute s r).2 = storeView s := by
  unfold addRoute
  split
  · rfl
  split <;> rfl

theorem keepsStore_routeAdd : KeepsStore answerRouteAdd := by
  intro s payload hs
  unfold answerRouteAdd
  split
  · refine hs.inSession ?_
    split
    · exact hs.of_view (storeView_addRoute s _)
    · exact hs
  · exact hs

theorem keepsStore_routeRemove : KeepsStore answerRouteRemove := by
  intro s payload hs
  unfold answerRouteRemove
  split
  · refine hs.inSession ?_
    split
    · exact hs
    split
    · exact hs
    · exact hs.of_view rfl
  · exact hs

theorem keepsStore_routeList : KeepsStore answerRouteList := by
  intro s payload hs
  unfold answerRouteList
  split
  · exact hs.inSession hs
  · exact hs

theorem keepsStore_readCaptures : KeepsStore answerReadCaptures := by
  intro s payload hs
  unfold answerReadCaptures
  split
  · refine hs.inSession ?_
    split
    · exact hs
    split
    · exact hs
    · exact hs.of_view rfl
  · exact hs

theorem storeView_setStreaming (s : State) (on : Bool) :
    storeView (setStreaming s on) = storeView s := by
  unfold setStreaming
  dsimp only
  split
  · rw [storeView_tryMoves]; rfl
  · rfl

theorem keepsStore_captureStream : KeepsStore answerCaptureStream := by
  intro s payload hs
  unfold answerCaptureStream
  split
  · refine hs.inSession ?_
    split
    · exact hs
    · exact hs.of_view (storeView_setStreaming s _)
  · exact hs

/-! ## Every command -/

/-- A request row keeps the laws when its answer does. -/
theorem StoreLaw.next_serve {s : State} {k : Byte} {answer : State → List Byte → Answer × State}
    (hs : StoreLaw s) (h : KeepsStore answer) :
    ∃ t, (.next (Machine.serveRequest k answer s) : Host.Outcome State Fault Refusal) = .next t ∧
      StoreLaw t := ⟨_, rfl, hs.serveRequest k h⟩

/-- A happening keeps the laws when the state it leaves does; where it is not there, nothing changes
(log 2). -/
theorem StoreLaw.next_if {s t : State} {p : Prop} [Decidable p] (hs : StoreLaw s)
    (ht : StoreLaw t) :
    ∃ u, (.next (if p then t else s) : Host.Outcome State Fault Refusal) = .next u ∧ StoreLaw u :=
  ⟨_, rfl, by split; exacts [ht, hs]⟩

/-- Reset values keep the laws: 512 free slots and no program (R18). -/
theorem storeLaw_init {s : State} (hstore : s.store = Store.init)
    (hchan : s.channels = Vector.replicate 8 Channel.init) : StoreLaw s := by
  have hprog : ∀ q, s.prog q = Program.none := fun q => by
    simp [State.prog, hstore, Store.init]
  have hch : ∀ c, s.chan c = Channel.init := fun c => by simp [State.chan, hchan]
  refine ⟨?_, fun q => ?_, ⟨fun p q hp => ?_, fun _ p hp => ?_⟩, fun q => ?_, fun c b hb => ?_⟩
  · simp [PoolLaw, stepsHeld, hprog, hstore, Store.init, Program.none, Config.stepSlots]
  · rw [hprog]; decide
  · rw [hprog] at hp; cases hp
  · rw [hprog] at hp; cases hp
  · rw [hprog, bindingsNaming_eq_sum]
    simp [hch, naming_eq, Channel.init, Program.none]
  · rw [hch] at hb
    cases hb

/-- Every command has a next state, and it keeps the laws of the program store. -/
theorem StoreLaw.exec {s : State} (hs : StoreLaw s) (i : Instr) :
    ∃ t, exec i s = .next t ∧ StoreLaw t := by
  cases i with
  | ident => exact hs.next_serve keepsStore_ident
  | status => exact hs.next_serve keepsStore_status
  | openSession => exact hs.next_serve keepsStore_openSession
  | closeSession => exact hs.next_serve keepsStore_closeSession
  | ackReports => exact hs.next_serve keepsStore_ackReports
  | restart => exact hs.next_serve keepsStore_restart
  | cutoff => exact hs.next_serve keepsStore_cutoff
  | cutoffRelease => exact hs.next_serve keepsStore_cutoffRelease
  | setChannelOptions => exact hs.next_serve keepsStore_setChannelOptions
  | defineProgram => exact hs.next_serve keepsStore_defineProgram
  | appendSteps => exact hs.next_serve keepsStore_appendSteps
  | sealProgram => exact hs.next_serve keepsStore_sealProgram
  | discardProgram => exact hs.next_serve keepsStore_discardProgram
  | deleteProgram => exact hs.next_serve keepsStore_deleteProgram
  | programInfo => exact hs.next_serve keepsStore_programInfo
  | programRead => exact hs.next_serve keepsStore_programRead
  | bind => exact hs.next_serve keepsStore_bind
  | enable => exact hs.next_serve keepsStore_enable
  | stop => exact hs.next_serve keepsStore_stop
  | halt => exact hs.next_serve keepsStore_halt
  | fire => exact hs.next_serve keepsStore_fire
  | channelStatus => exact hs.next_serve keepsStore_channelStatus
  | timebaseConfig => exact hs.next_serve keepsStore_timebaseConfig
  | setLine => exact hs.next_serve keepsStore_setLine
  | readTime => exact hs.next_serve keepsStore_readTime
  | captureConfig => exact hs.next_serve keepsStore_captureConfig
  | routeAdd => exact hs.next_serve keepsStore_routeAdd
  | routeRemove => exact hs.next_serve keepsStore_routeRemove
  | routeList => exact hs.next_serve keepsStore_routeList
  | readCaptures => exact hs.next_serve keepsStore_readCaptures
  | captureStream => exact hs.next_serve keepsStore_captureStream
  | reject => exact hs.execReject
  | frameComplete b => exact hs.next_if (hs.of_view (storeView_receive b s))
  | invalidLenByte b => exact hs.next_if (hs.of_view (storeView_receive b s))
  | receivedByte b => exact hs.next_if (hs.of_view (storeView_receive b s))
  | interByteGapTimeout => exact hs.next_if (hs.of_view rfl)
  | transmissionEnd =>
    refine ⟨_, rfl, ?_⟩
    split
    · exact hs
    split
    · exact hs.endTransmission _
    · exact hs
  | hardReset cause baud1 baud0 => exact hs.next_if (storeLaw_init rfl rfl)
  | startUpEnd => exact hs.next_if (hs.endStartUp.of_view (storeView_arbitrate _))
  | lineRise => exact hs.next_if (hs.of_view (by simp))
  | lineFall => exact hs.next_if (hs.of_view rfl)
  | lineStallDetected => exact hs.next_if (hs.of_view (by simp))
  | captureEdge i =>
    refine ⟨_, rfl, ?_⟩
    split
    · exact hs.of_view (by simp)
    · exact hs
  | cutoffNAssertion =>
    have key : ∀ k, StoreLaw { s with cutoff := k } := fun _ => hs.of_view rfl
    refine ⟨_, rfl, ?_⟩
    split
    · exact ((key _).trip .pin).of_view (storeView_arbitrate _)
    · exact hs
  | cutoffNDeassertion => exact hs.next_if (hs.of_view rfl)
  | silenceExpiry =>
    exact hs.next_if
      (((hs.trip .silence).closeSession .silence).of_view (storeView_arbitrate _))
  | resendExpiry => exact hs.next_if (hs.of_view (storeView_arbitrate _))
  | headEntryDue c => exact hs.next_if (hs.of_view (by simp))
  | stepEnd c =>
    refine ⟨_, rfl, ?_⟩
    split
    · split
      · exact (hs.endStep c _ _ _).of_view (storeView_arbitrate _)
      · exact hs
    · exact hs
  | holdUntilTimeout c =>
    refine ⟨_, rfl, ?_⟩
    split
    · split
      · exact ((hs.of_view (storeView_submit s _)).endStep c _ _ _).of_view (storeView_arbitrate _)
      · exact hs
    · exact hs
  | holdUntilEdge c =>
    refine ⟨_, rfl, ?_⟩
    split
    · exact hs
    · exact ((hs.of_view (storeView_modChan s c _ rfl rfl)).takeOffer c _).of_view
        (storeView_arbitrate _)
  | routeTrigger c =>
    refine ⟨_, rfl, ?_⟩
    split
    · exact hs
    · exact hs.of_view (by simp)
  | stallNotice c =>
    refine ⟨_, rfl, ?_⟩
    split
    · exact hs
    · exact ((hs.of_view (storeView_modChan s c _ rfl rfl)).actOnStall c).of_view
        (storeView_arbitrate _)
  | linePresetTaken c =>
    refine ⟨_, rfl, ?_⟩
    split
    · exact hs
    · exact hs.of_view (storeView_modChan s c _ (takePreset_bindings _ _).1
        (takePreset_bindings _ _).2)
  | entryOverdueDiscard c => exact hs.next_if (hs.of_view (by simp))
  | timeBaseTick pins => exact ⟨_, rfl, hs.of_view (storeView_tick pins s)⟩

/-- Settles O55: the front command is run on a state with the same view, and every command keeps the
laws. -/
theorem stepKeepsProgramStoreLaws : Obligations.StepKeepsProgramStoreLaws := by
  intro s t hs hstep
  unfold step at hstep
  split at hstep
  · cases hstep
    exact hs
  · next i rest _ =>
    have hrest : StoreLaw { s with pending := rest } := hs.of_view rfl
    obtain ⟨u, hu, hlaw⟩ := hrest.exec i
    rw [hu] at hstep
    cases hstep
    exact hlaw

/-! ## Reset -/

/-- Settles O2: block by block, on the reset values. -/
theorem resetIsLawful : Obligations.ResetIsLawful := by
  have hchan : ∀ c, State.reset.chan c = Channel.init := by decide
  refine ⟨storeLaw_init rfl rfl, fun c => ?_, fun c hc => ?_, by decide, ?_, by decide, by decide,
    ?_⟩
  · rw [hchan]; decide
  · rw [hchan] at hc; cases hc
  · exact ⟨by simp [LogLaw, State.reset, Capture.init, InSequence], by decide, by decide, by decide⟩
  · simp [SessionLaw, QueueLaw, State.reset, Session.init, NumberedTo, Session.unacknowledged]

theorem exec_hardReset_of_resets {s : State} {cause : ResetCause} {baud1 baud0 : Level}
    (h : resets cause = true) :
    exec (.hardReset cause baud1 baud0) s =
      .next { State.reset with
        link := Link.init (LinkRate.ofStraps baud1 baud0)
        pins := s.pins, freeCount := s.freeCount, pending := s.pending } :=
  congrArg Host.Outcome.next (if_pos h)

/-- Settles O3: a pulse that resets gives the reset state with the strapped rate, a shorter one
nothing. -/
theorem hardResetGivesResetValues : Obligations.HardResetGivesResetValues := by
  intro s baud1 baud0 n
  refine ⟨fun hn => congrArg Host.Outcome.next (if_neg ?_), fun cause hcause => ?_⟩
  · exact fun h => absurd (of_decide_eq_true h) (Nat.not_le_of_lt hn)
  have hresets : resets cause = true := by
    rcases hcause with rfl | ⟨rfl, hn⟩
    · rfl
    · exact decide_eq_true hn
  refine ⟨_, exec_hardReset_of_resets hresets, rfl, rfl, ?_⟩
  have hprog : ∀ q, State.reset.prog q = Program.none := by decide
  have hchan : ∀ c, State.reset.chan c = Channel.init := by decide
  have hinput : ∀ i, State.reset.input i = CapInput.init := by decide
  have hroute : ∀ id, State.reset.route id = none := by decide
  have hrate : (LinkRate.ofStraps baud1 baud0).bitsPerSecond =
      (if baud1 = .high then (if baud0 = .high then 3000000 else 1000000)
       else (if baud0 = .high then 460800 else 115200)) := by
    cases baud1 <;> cases baud0 <;> rfl
  refine ⟨hprog, rfl, fun c => ?_, rfl, rfl, rfl, rfl, rfl, rfl, rfl, rfl, rfl, rfl, hinput, hroute,
    rfl, rfl, rfl, rfl, rfl, rfl, rfl, rfl, hrate, rfl, rfl, rfl, rfl, rfl, rfl, rfl, rfl, rfl, rfl,
    rfl, rfl, rfl⟩
  have hc := hchan c
  simp only [State.chan] at hc ⊢
  rw [hc]
  decide

/-! ## KIND, length, session -/

/-- A KIND that is not one of section 10.1 is answered by REJECT (R146). -/
theorem namesNoRequest_of_not_mem {k : Byte} (h : k ∉ requestKinds) : namesNoRequest k = true := by
  have hne : ∀ n, k.toNat = n → BitVec.ofNat 8 n ∉ requestKinds := by
    rintro _ rfl
    simpa using h
  unfold namesNoRequest commandOfKind
  split
  case h_32 => rfl
  all_goals next hk => exact (hne _ hk (by decide)).elim

/-- A request that needs a session and has a payload of fixed length: BAD_LENGTH for another length,
then NO_SESSION, with `n` reply fields of 0 and nothing changed (R147, R173). -/
structure JudgedInSession (answer : State → List Byte → Answer × State) (len n : Nat) : Prop where
  badLength : ∀ s p, p.length ≠ len → answer s p = (refusal .badLength n, s)
  noSession : ∀ s p, p.length = len → s.session.state = .closed →
    answer s p = (refusal .noSession n, s)

/-- A program-changing request of fixed length: the same two checks, whose replies tell the free
slots (R5, R6). -/
structure JudgedInStore (answer : State → List Byte → Answer × State) (len : Nat) : Prop where
  badLength : ∀ s p, p.length ≠ len → answer s p = (storeAnswer s .badLength 0, s)
  noSession : ∀ s p, p.length = len → s.session.state = .closed →
    answer s p = (storeAnswer s .noSession 0, s)

/-- A request that needs no session has its length checked alone (R147). -/
def JudgedByLength (answer : State → List Byte → Answer × State) (len n : Nat) : Prop :=
  ∀ s p, p.length ≠ len → answer s p = (refusal .badLength n, s)

theorem judged_channelRequest (n : Nat) (k : State → Fin 8 → Answer × State) :
    JudgedInSession (channelRequest n k) 1 n where
  badLength s p h := by unfold channelRequest; split; exacts [absurd rfl h, rfl]
  noSession _ p h hc := match p, h with | [_], _ => inSession_of_closed hc

theorem judged_closeSession : JudgedInSession answerCloseSession 1 2 where
  badLength s p h := by unfold answerCloseSession; split; exacts [absurd rfl h, rfl]
  noSession _ p h hc := match p, h with | [_], _ => inSession_of_closed hc

theorem judged_ackReports : JudgedInSession answerAckReports 2 3 where
  badLength s p h := by unfold answerAckReports; split; exacts [absurd rfl h, rfl]
  noSession _ p h hc := match p, h with | [_, _], _ => inSession_of_closed hc

theorem judged_cutoffRelease : JudgedInSession answerCutoffRelease 0 3 where
  badLength s p h := by unfold answerCutoffRelease; split; exacts [absurd rfl h, rfl]
  noSession _ p h hc := match p, h with | [], _ => inSession_of_closed hc

theorem judged_setChannelOptions : JudgedInSession answerSetChannelOptions 3 3 where
  badLength s p h := by unfold answerSetChannelOptions; split; exacts [absurd rfl h, rfl]
  noSession _ p h hc := match p, h with | [_, _, _], _ => inSession_of_closed hc

theorem judged_programInfo : JudgedInSession answerProgramInfo 1 6 where
  badLength s p h := by unfold answerProgramInfo; split; exacts [absurd rfl h, rfl]
  noSession _ p h hc := match p, h with | [_], _ => inSession_of_closed hc

theorem judged_programRead : JudgedInSession answerProgramRead 3 3 where
  badLength s p h := by unfold answerProgramRead; split; exacts [absurd rfl h, rfl]
  noSession _ p h hc := match p, h with | [_, _, _], _ => inSession_of_closed hc

theorem judged_bind : JudgedInSession answerBind 13 3 where
  badLength s p h := by unfold answerBind; split; exacts [absurd rfl h, rfl]
  noSession _ p h hc := match p, h with
    | [_, _, _, _, _, _, _, _, _, _, _, _, _], _ => inSession_of_closed hc

theorem judged_fire : JudgedInSession answerFire 8 7 where
  badLength s p h := by unfold answerFire; split; exacts [absurd rfl h, rfl]
  noSession _ p h hc := match p, h with
    | [_, _, _, _, _, _, _, _], _ => inSession_of_closed hc

theorem judged_timebaseConfig : JudgedInSession answerTimebaseConfig 3 4 where
  badLength s p h := by unfold answerTimebaseConfig; split; exacts [absurd rfl h, rfl]
  noSession _ p h hc := match p, h with | [_, _, _], _ => inSession_of_closed hc

theorem judged_setLine : JudgedInSession answerSetLine 4 8 where
  badLength s p h := by unfold answerSetLine; split; exacts [absurd rfl h, rfl]
  noSession _ p h hc := match p, h with | [_, _, _, _], _ => inSession_of_closed hc

theorem judged_readTime : JudgedInSession answerReadTime 0 14 where
  badLength s p h := by unfold answerReadTime; split; exacts [absurd rfl h, rfl]
  noSession _ p h hc := match p, h with | [], _ => inSession_of_closed hc

theorem judged_captureConfig : JudgedInSession answerCaptureConfig 4 3 where
  badLength s p h := by unfold answerCaptureConfig; split; exacts [absurd rfl h, rfl]
  noSession _ p h hc := match p, h with | [_, _, _, _], _ => inSession_of_closed hc

theorem judged_routeAdd : JudgedInSession answerRouteAdd 3 2 where
  badLength s p h := by unfold answerRouteAdd; split; exacts [absurd rfl h, rfl]
  noSession _ p h hc := match p, h with | [_, _, _], _ => inSession_of_closed hc

theorem judged_routeRemove : JudgedInSession answerRouteRemove 1 1 where
  badLength s p h := by unfold answerRouteRemove; split; exacts [absurd rfl h, rfl]
  noSession _ p h hc := match p, h with | [_], _ => inSession_of_closed hc

theorem judged_routeList : JudgedInSession answerRouteList 0 1 where
  badLength s p h := by unfold answerRouteList; split; exacts [absurd rfl h, rfl]
  noSession _ p h hc := match p, h with | [], _ => inSession_of_closed hc

theorem judged_readCaptures : JudgedInSession answerReadCaptures 1 4 where
  badLength s p h := by unfold answerReadCaptures; split; exacts [absurd rfl h, rfl]
  noSession _ p h hc := match p, h with | [_], _ => inSession_of_closed hc

theorem judged_captureStream : JudgedInSession answerCaptureStream 1 2 where
  badLength s p h := by unfold answerCaptureStream; split; exacts [absurd rfl h, rfl]
  noSession _ p h hc := match p, h with | [_], _ => inSession_of_closed hc

theorem changeProgram_of_closed {s : State} (id : Byte) (k : Fin 32 → Answer × State)
    (h : s.session.state = .closed) : changeProgram s id k = (storeAnswer s .noSession 0, s) :=
  if_pos h

theorem judged_defineProgram : JudgedInStore answerDefineProgram 4 where
  badLength s p h := by unfold answerDefineProgram; split; exacts [absurd rfl h, rfl]
  noSession _ p h hc := match p, h with | [_, _, _, _], _ => changeProgram_of_closed _ _ hc

theorem judged_sealProgram : JudgedInStore answerSealProgram 1 where
  badLength s p h := by unfold answerSealProgram; split; exacts [absurd rfl h, rfl]
  noSession _ p h hc := match p, h with | [_], _ => changeProgram_of_closed _ _ hc

theorem judged_discardProgram : JudgedInStore answerDiscardProgram 1 where
  badLength s p h := by unfold answerDiscardProgram; split; exacts [absurd rfl h, rfl]
  noSession _ p h hc := match p, h with | [_], _ => changeProgram_of_closed _ _ hc

theorem judged_deleteProgram : JudgedInStore answerDeleteProgram 1 where
  badLength s p h := by unfold answerDeleteProgram; split; exacts [absurd rfl h, rfl]
  noSession _ p h hc := match p, h with | [_], _ => changeProgram_of_closed _ _ hc

theorem judged_ident : JudgedByLength answerIdent 0 13 := fun s p h => by
  unfold answerIdent; split; exacts [absurd rfl h, rfl]

theorem judged_status : JudgedByLength answerStatus 1 36 := fun s p h => by
  unfold answerStatus; split; exacts [absurd rfl h, rfl]

theorem judged_openSession : JudgedByLength answerOpenSession 5 2 := fun s p h => by
  unfold answerOpenSession; split; exacts [absurd rfl h, rfl]

theorem judged_restart : JudgedByLength answerRestart 0 0 := fun s p h => by
  unfold answerRestart; split; exacts [absurd rfl h, rfl]

theorem judged_cutoff : JudgedByLength answerCutoff 0 3 := fun s p h => by
  unfold answerCutoff; split; exacts [absurd rfl h, rfl]

/-- APPEND_STEPS has the length its step count gives, 2 + 4n (R174). -/
abbrev AppendLength (p : List Byte) : Prop :=
  ∃ id n bytes, p = id :: n :: bytes ∧ bytes.length = 4 * n.toNat

theorem answerAppendSteps_of_badLength (s : State) {p : List Byte} (h : ¬ AppendLength p) :
    answerAppendSteps s p = (storeAnswer s .badLength 0, s) := by
  unfold answerAppendSteps
  split
  · next id n bytes =>
    exact if_neg fun hl => h ⟨id, n, bytes, rfl, hl⟩
  · rfl

theorem answerAppendSteps_of_closed {s : State} {p : List Byte} (h : AppendLength p)
    (hc : s.session.state = .closed) :
    answerAppendSteps s p = (storeAnswer s .noSession 0, s) := by
  obtain ⟨id, n, bytes, rfl, hl⟩ := h
  exact (if_pos hl).trans (changeProgram_of_closed _ _ hc)

/-- The answer function that executes requests of a row (R146). -/
def Answers (i : Instr) (answer : State → List Byte → Answer × State) : Prop :=
  ∃ k, kindOfCommand i = some k ∧ ∀ s, exec i s = .next (serveRequest k answer s)

theorem Answers.executed {i : Instr} {answer : State → List Byte → Answer × State}
    (hi : Answers i answer) {s t : State} {r : Request} {result : Result} {fields : List Byte}
    (h : Serves s r) (hk : kindOfCommand i = some r.kind)
    (ha : answer (popRequest s) r.payload = ({ result := result, fields := fields }, t)) :
    Executed i s r result fields t := by
  obtain ⟨k, hik, hexec⟩ := hi
  exact executed_of_serves (hexec s) h (Option.some.inj (hk.symm.trans hik)) ha

theorem sessionRequests_judged :
    ∀ e ∈ sessionRequests, ∃ answer, Answers e.1 answer ∧ JudgedInSession answer e.2.1 e.2.2 := by
  simp only [sessionRequests, List.forall_mem_cons]
  exact ⟨⟨_, ⟨_, rfl, fun _ => rfl⟩, judged_closeSession⟩,
    ⟨_, ⟨_, rfl, fun _ => rfl⟩, judged_ackReports⟩,
    ⟨_, ⟨_, rfl, fun _ => rfl⟩, judged_cutoffRelease⟩,
    ⟨_, ⟨_, rfl, fun _ => rfl⟩, judged_setChannelOptions⟩,
    ⟨_, ⟨_, rfl, fun _ => rfl⟩, judged_programInfo⟩,
    ⟨_, ⟨_, rfl, fun _ => rfl⟩, judged_programRead⟩,
    ⟨_, ⟨_, rfl, fun _ => rfl⟩, judged_bind⟩,
    ⟨_, ⟨_, rfl, fun _ => rfl⟩, judged_channelRequest _ _⟩,
    ⟨_, ⟨_, rfl, fun _ => rfl⟩, judged_channelRequest _ _⟩,
    ⟨_, ⟨_, rfl, fun _ => rfl⟩, judged_channelRequest _ _⟩,
    ⟨_, ⟨_, rfl, fun _ => rfl⟩, judged_fire⟩,
    ⟨_, ⟨_, rfl, fun _ => rfl⟩, judged_channelRequest _ _⟩,
    ⟨_, ⟨_, rfl, fun _ => rfl⟩, judged_timebaseConfig⟩,
    ⟨_, ⟨_, rfl, fun _ => rfl⟩, judged_setLine⟩,
    ⟨_, ⟨_, rfl, fun _ => rfl⟩, judged_readTime⟩,
    ⟨_, ⟨_, rfl, fun _ => rfl⟩, judged_captureConfig⟩,
    ⟨_, ⟨_, rfl, fun _ => rfl⟩, judged_routeAdd⟩,
    ⟨_, ⟨_, rfl, fun _ => rfl⟩, judged_routeRemove⟩,
    ⟨_, ⟨_, rfl, fun _ => rfl⟩, judged_routeList⟩,
    ⟨_, ⟨_, rfl, fun _ => rfl⟩, judged_readCaptures⟩,
    ⟨_, ⟨_, rfl, fun _ => rfl⟩, judged_captureStream⟩,
    fun _ h => absurd h List.not_mem_nil⟩

theorem openRequests_judged :
    ∀ e ∈ openRequests, ∃ answer, Answers e.1 answer ∧ JudgedByLength answer e.2.1 e.2.2 := by
  simp only [openRequests, List.forall_mem_cons]
  exact ⟨⟨_, ⟨_, rfl, fun _ => rfl⟩, judged_ident⟩, ⟨_, ⟨_, rfl, fun _ => rfl⟩, judged_status⟩,
    ⟨_, ⟨_, rfl, fun _ => rfl⟩, judged_openSession⟩, ⟨_, ⟨_, rfl, fun _ => rfl⟩, judged_restart⟩,
    ⟨_, ⟨_, rfl, fun _ => rfl⟩, judged_cutoff⟩, fun _ h => absurd h List.not_mem_nil⟩

theorem programRequests_judged :
    ∀ e ∈ programRequests, ∃ answer, Answers e.1 answer ∧ JudgedInStore answer e.2 := by
  simp only [programRequests, List.forall_mem_cons]
  exact ⟨⟨_, ⟨_, rfl, fun _ => rfl⟩, judged_defineProgram⟩,
    ⟨_, ⟨_, rfl, fun _ => rfl⟩, judged_sealProgram⟩,
    ⟨_, ⟨_, rfl, fun _ => rfl⟩, judged_discardProgram⟩,
    ⟨_, ⟨_, rfl, fun _ => rfl⟩, judged_deleteProgram⟩, fun _ h => absurd h List.not_mem_nil⟩

/-- Settles O6: every request of the three tables judges its length first, then its session. -/
theorem kindThenLengthThenSession : Obligations.KindThenLengthThenSession := by
  intro s r hs
  have happend : Answers .appendSteps answerAppendSteps := ⟨_, rfl, fun _ => rfl⟩
  refine ⟨fun hk => ?_, fun e he hk hl => ?_, fun e he hk hl hc => ?_, fun e he hk hl => ?_,
    fun e he hk hl hc => ?_, fun hk hl => ?_, fun hk hc hl => ?_⟩
  · have ht : takeRequest namesNoRequest s = some (r, popRequest s) :=
      takeRequest_of_serves hs (namesNoRequest_of_not_mem hk)
    show execReject s = _
    rw [execReject, ht]
    rfl
  · rcases List.mem_append.mp he with he | he
    · obtain ⟨answer, hi, hj⟩ := sessionRequests_judged e he
      exact hi.executed hs hk (hj.badLength _ _ hl)
    · obtain ⟨answer, hi, hj⟩ := openRequests_judged e he
      exact hi.executed hs hk (hj _ _ hl)
  · obtain ⟨answer, hi, hj⟩ := sessionRequests_judged e he
    exact hi.executed hs hk (hj.noSession _ _ hl hc)
  · obtain ⟨answer, hi, hj⟩ := programRequests_judged e he
    exact hi.executed hs hk (hj.badLength _ _ hl)
  · obtain ⟨answer, hi, hj⟩ := programRequests_judged e he
    exact hi.executed hs hk (hj.noSession _ _ hl hc)
  · exact happend.executed hs (congrArg some hk.symm) (answerAppendSteps_of_badLength _ hl)
  · exact happend.executed hs (congrArg some hk.symm) (answerAppendSteps_of_closed hl hc)

/-! ## The requests that read -/

theorem answerProgramInfo_of_out {s : State} {id : Byte} (ho : s.session.state = .opened)
    (h : id = 0 ∨ 32 < id.toNat) : answerProgramInfo s [id] = (refusal .badValue 6, s) := by
  rw [answerProgramInfo, inSession_of_opened ho, programOf_of_out h]

theorem answerProgramInfo_of_names {s : State} {id : Byte} {q : Fin 32}
    (ho : s.session.state = .opened) (h : NamesProgram id q) :
    answerProgramInfo s [id] = (programInfo (s.prog q), s) := by
  rw [answerProgramInfo, inSession_of_opened ho, programOf_of_names h]

theorem answerProgramRead_of_out {s : State} {id first count : Byte}
    (ho : s.session.state = .opened) (h : id = 0 ∨ 32 < id.toNat) :
    answerProgramRead s [id, first, count] = (refusal .badValue 3, s) := by
  rw [answerProgramRead, inSession_of_opened ho, programOf_of_out h]

theorem answerProgramRead_of_names {s : State} {id first count : Byte} {q : Fin 32}
    (ho : s.session.state = .opened) (h : NamesProgram id q) :
    answerProgramRead s [id, first, count] = (programRead (s.prog q) first count, s) := by
  rw [answerProgramRead, inSession_of_opened ho, programOf_of_names h]

theorem programRead_of_badRange {p : Program} {first count : Byte}
    (h : count = 0 ∨ 16 < count.toNat ∨ 63 < first.toNat) :
    programRead p first count = refusal .badValue 3 := by
  refine if_pos ?_
  rcases h with rfl | h
  · exact .inl rfl
  · exact .inr h

theorem programRead_of_empty {p : Program} {first count : Byte} (h1 : 1 ≤ count.toNat)
    (h16 : count.toNat ≤ 16) (h63 : first.toNat ≤ 63) (he : p.state = .empty) :
    programRead p first count = refusal .state 3 := by
  rw [programRead, if_neg (by omega), if_pos he]

theorem programRead_of_steps {p : Program} {first count : Byte} (h1 : 1 ≤ count.toNat)
    (h16 : count.toNat ≤ 16) (h63 : first.toNat ≤ 63) (he : p.state ≠ .empty) :
    programRead p first count =
      { result := .ok
        fields := [p.state.code, byteOf p.steps.length,
            byteOf (min count.toNat (p.steps.length - first.toNat))] ++
          ((p.steps.drop first.toNat).take count.toNat).flatMap fun st =>
            le24 st.duration ++ [st.descriptor] } := by
  rw [programRead, if_neg (by omega), if_neg he]
  simp only [List.length_take, List.length_drop]
  rfl

/-- A byte that names no program id, or names one (R1, R5). -/
theorem out_or_names (id : Byte) : (id = 0 ∨ 32 < id.toNat) ∨ ∃ q, NamesProgram id q := by
  by_cases h : id = 0 ∨ 32 < id.toNat
  · exact .inl h
  · have hpos : id.toNat ≠ 0 := fun h0 => h (.inl (BitVec.eq_of_toNat_eq h0))
    exact .inr ⟨⟨id.toNat - 1, by omega⟩, by simp only [NamesProgram]; omega⟩

/-- Settles O9: each of the four answers, read off its rule with the session OPEN. -/
theorem readingRequestsTell : Obligations.ReadingRequestsTell := by
  intro s r hs ho
  have ho' : (popRequest s).session.state = .opened := ho
  have hinfo : Answers .programInfo answerProgramInfo := ⟨_, rfl, fun _ => rfl⟩
  have hread : Answers .programRead answerProgramRead := ⟨_, rfl, fun _ => rfl⟩
  have htime : Answers .readTime answerReadTime := ⟨_, rfl, fun _ => rfl⟩
  have hlist : Answers .routeList answerRouteList := ⟨_, rfl, fun _ => rfl⟩
  refine ⟨fun hk id hp => ⟨fun hid => ?_, fun q hq => ?_⟩,
    fun hk id first count hp => ⟨fun hbad => ?_,
      fun q hq h1 h16 h63 => ⟨fun he => ?_, fun he => ?_⟩⟩,
    fun hk hp => ?_, fun hk hp => ?_⟩
  · exact hinfo.executed hs (congrArg some hk.symm) (hp ▸ answerProgramInfo_of_out ho' hid)
  · exact hinfo.executed hs (congrArg some hk.symm) (hp ▸ answerProgramInfo_of_names ho' hq)
  · refine hread.executed hs (congrArg some hk.symm) ?_
    rw [hp]
    rcases out_or_names id with hid | ⟨q, hq⟩
    · exact answerProgramRead_of_out ho' hid
    · have hcount : count = 0 ∨ 16 < count.toNat ∨ 63 < first.toNat := by
        have hn : id.toNat = q.val + 1 := hq
        rcases hbad with rfl | hid | hbad
        · exact absurd hn (by simp)
        · omega
        · exact hbad
      rw [answerProgramRead_of_names ho' hq, programRead_of_badRange hcount]
      rfl
  · refine hread.executed hs (congrArg some hk.symm) ?_
    rw [hp, answerProgramRead_of_names ho' hq, popRequest_prog,
      programRead_of_empty h1 h16 h63 he]
    rfl
  · refine hread.executed hs (congrArg some hk.symm) ?_
    rw [hp, answerProgramRead_of_names ho' hq, popRequest_prog,
      programRead_of_steps h1 h16 h63 he]
  · refine htime.executed hs (congrArg some hk.symm) ?_
    rw [hp, answerReadTime, inSession_of_opened ho']
    cases h : s.line.period <;> simp [h, bitSet, bitsNat, orZero32, byteOf]
  · refine hlist.executed hs (congrArg some hk.symm) ?_
    rw [hp, answerRouteList, inSession_of_opened ho', routeCount, List.countP_eq_length_filter]
    rfl

/-! ## The requests that change the program store -/

theorem changeProgram_of_out {s : State} {id : Byte} (k : Fin 32 → Answer × State)
    (ho : s.session.state = .opened) (h : id = 0 ∨ 32 < id.toNat) :
    changeProgram s id k = (storeAnswer s .badValue 0xFD, s) := by
  rw [changeProgram, if_neg (by rw [ho]; decide), programOf_of_out h]

theorem changeProgram_of_names {s : State} {id : Byte} {q : Fin 32} (k : Fin 32 → Answer × State)
    (ho : s.session.state = .opened) (h : NamesProgram id q) : changeProgram s id k = k q := by
  rw [changeProgram, if_neg (by rw [ho]; decide), programOf_of_names h]

theorem openProgram_isSome_iff (s : State) :
    (openProgram s).isSome = true ↔ ∃ p, (s.prog p).state = .opened := by
  simp [openProgram, allPrograms, List.find?_isSome]

/-- Settles O11: the checks of DEFINE_PROGRAM and SEAL_PROGRAM, one clause each. -/
theorem defineAndSealBuildAProgram : Obligations.DefineAndSealBuildAProgram := by
  intro s r id hs ho
  have ho' : (popRequest s).session.state = .opened := ho
  have hdefine : Answers .defineProgram answerDefineProgram := ⟨_, rfl, fun _ => rfl⟩
  have hseal : Answers .sealProgram answerSealProgram := ⟨_, rfl, fun _ => rfl⟩
  refine ⟨fun hk start c0 c1 hp => ⟨fun hid => ?_, fun q hq => ?_⟩,
    fun hk hp => ⟨fun hid => ?_, fun q hq => ?_⟩⟩
  · exact hdefine.executed hs (congrArg some hk.symm) (hp ▸ changeProgram_of_out _ ho' hid)
  · have hrun : ∀ {result fields t},
        defineProgram (popRequest s) q start (c1 ++ c0) = (⟨result, fields⟩, t) →
        Executed .defineProgram s r result fields t := fun h =>
      hdefine.executed hs (congrArg some hk.symm)
        (hp ▸ (changeProgram_of_names _ ho' hq).trans h)
    have hopen := openProgram_isSome_iff (popRequest s)
    simp only [popRequest_prog] at hopen
    refine ⟨fun h63 => hrun ?_, fun h63 he => hrun ?_, fun h63 he hd => hrun ?_,
      fun h63 he hd => hrun ?_⟩
    · exact if_pos h63
    · exact (if_neg (Nat.not_lt_of_le h63)).trans (if_pos he)
    · exact (if_neg (Nat.not_lt_of_le h63)).trans
        ((if_neg (not_not.mpr he)).trans (if_pos (hopen.mpr hd)))
    · exact (if_neg (Nat.not_lt_of_le h63)).trans
        ((if_neg (not_not.mpr he)).trans (if_neg fun h => (hopen.mp h).elim hd))
  · exact hseal.executed hs (congrArg some hk.symm) (hp ▸ changeProgram_of_out _ ho' hid)
  · have hrun : ∀ {result fields t}, sealProgram (popRequest s) q = (⟨result, fields⟩, t) →
        Executed .sealProgram s r result fields t := fun h =>
      hseal.executed hs (congrArg some hk.symm) (hp ▸ (changeProgram_of_names _ ho' hq).trans h)
    refine ⟨fun he => hrun ?_, fun he hl => hrun ?_, fun he hl => hrun ?_⟩
    · exact if_pos he
    · exact (if_neg (not_not.mpr he)).trans (if_pos hl)
    · exact (if_neg (not_not.mpr he)).trans (if_neg (Nat.not_le_of_lt hl))

/-- Settles O13: the checks of DISCARD_PROGRAM and DELETE_PROGRAM, then the emptied record. -/
theorem discardAndDeleteEmptyARecord : Obligations.DiscardAndDeleteEmptyARecord := by
  intro s r id hs ho hp
  have ho' : (popRequest s).session.state = .opened := ho
  have hdiscard : Answers .discardProgram answerDiscardProgram := ⟨_, rfl, fun _ => rfl⟩
  have hdelete : Answers .deleteProgram answerDeleteProgram := ⟨_, rfl, fun _ => rfl⟩
  refine ⟨fun ⟨hk, hid⟩ => ?_, fun ⟨hk, hid⟩ => ?_, fun q hq t ht => ?_⟩
  · exact hdiscard.executed hs (congrArg some hk.symm) (hp ▸ changeProgram_of_out _ ho' hid)
  · exact hdelete.executed hs (congrArg some hk.symm) (hp ▸ changeProgram_of_out _ ho' hid)
  have hempty : emptyProgram (popRequest s) q = t := ht.symm
  subst hempty
  refine ⟨fun hk => ?_, fun hk => ?_⟩
  · have hrun : ∀ {result fields t}, discardProgram (popRequest s) q = (⟨result, fields⟩, t) →
        Executed .discardProgram s r result fields t := fun h =>
      hdiscard.executed hs (congrArg some hk.symm) (hp ▸ (changeProgram_of_names _ ho' hq).trans h)
    exact ⟨fun he => hrun (if_pos he), fun he => hrun (if_neg (not_not.mpr he))⟩
  · have hrun : ∀ {result fields t}, deleteProgram (popRequest s) q = (⟨result, fields⟩, t) →
        Executed .deleteProgram s r result fields t := fun h =>
      hdelete.executed hs (congrArg some hk.symm) (hp ▸ (changeProgram_of_names _ ho' hq).trans h)
    exact ⟨fun he => hrun (if_pos he),
      fun he hu => hrun ((if_neg (not_not.mpr he)).trans (if_pos hu)),
      fun he hu => hrun ((if_neg (not_not.mpr he)).trans (if_neg (not_not.mpr hu)))⟩

/-! ## Carried steps -/

theorem read24_toNat (a b c : Byte) :
    (read24 a b c).toNat = a.toNat + 256 * b.toNat + 65536 * c.toNat := by
  unfold read24
  have := a.isLt
  have := b.isLt
  simp only [BitVec.toNat_append]
  rw [← Nat.shiftLeft_add_eq_or_of_lt (by omega), ← Nat.shiftLeft_add_eq_or_of_lt (by omega)]
  simp only [Nat.shiftLeft_eq]
  omega

theorem read24_eq_zero_iff (a b c : Byte) : read24 a b c = 0 ↔ a = 0 ∧ b = 0 ∧ c = 0 := by
  simp only [← BitVec.toNat_inj, read24_toNat, BitVec.ofNat_eq_ofNat, BitVec.toNat_ofNat,
    Nat.zero_mod]
  omega

theorem stepLevelOf_code (d : Byte) : (stepLevelOf d).code = d.toNat / 4 % 4 := by
  have hlt : d.toNat / 4 % 4 < 4 := Nat.mod_lt _ (by decide)
  unfold stepLevelOf
  generalize d.toNat / 4 % 4 = n at hlt ⊢
  match n, hlt with
  | 0, _ | 1, _ | 2, _ | 3, _ => rfl

theorem stepEdgeOf_code (d : Byte) : (stepEdgeOf d).code.toNat = d.toNat / 128 := by
  have hd := d.isLt
  have hbit : d.getLsbD 7 = decide (d.toNat / 128 % 2 = 1) := by
    rw [BitVec.getLsbD, Nat.testBit_eq_decide_div_mod_eq]
  unfold stepEdgeOf
  rw [hbit]
  split
  · next h => simp only [decide_eq_true_eq] at h; show 1 = _; omega
  · next h => simp only [decide_eq_true_eq] at h; show 0 = _; omega

/-- A carried step read from its four bytes (R8). -/
def readGroup (g : Byte × Byte × Byte × Byte) : Option ProgStep := stepOf g.1 g.2.1 g.2.2.1 g.2.2.2

theorem readGroup_of_fails {g : Byte × Byte × Byte × Byte} (h : stepFails g = true) :
    readGroup g = none := by
  obtain ⟨a, b, c, d⟩ := g
  simp only [stepFails, Bool.or_eq_true, Bool.and_eq_true, decide_eq_true_eq, beq_iff_eq] at h
  unfold readGroup stepOf
  dsimp only
  rcases h with (hkind | ⟨⟨ha, hb⟩, hc⟩) | ⟨hkind, hinput⟩
  · split
    · rfl
    · split
      · omega
      · omega
      · rfl
  · exact if_pos ((read24_eq_zero_iff a b c).mpr ⟨ha, hb, hc⟩)
  · rw [hkind]
    split
    · rfl
    · exact dif_neg (by omega)

theorem readGroup_of_passes {g : Byte × Byte × Byte × Byte} (h : stepFails g = false) :
    ∃ st, readGroup g = some st ∧ StoredAs g st := by
  obtain ⟨a, b, c, d⟩ := g
  simp only [stepFails, Bool.or_eq_false_iff, decide_eq_false_iff_not] at h
  obtain ⟨⟨hkind, hzero⟩, hinput⟩ := h
  have hd : read24 a b c ≠ 0 := fun h0 => by
    obtain ⟨rfl, rfl, rfl⟩ := (read24_eq_zero_iff a b c).mp h0
    cases hzero
  unfold readGroup stepOf
  dsimp only
  rw [if_neg hd]
  rcases (by omega : d.toNat % 4 = 0 ∨ d.toNat % 4 = 1) with hk | hk
  · rw [hk]
    exact ⟨_, rfl, read24_toNat a b c, stepLevelOf_code d, hk⟩
  · have hlt : d.toNat / 16 % 8 < 4 := by
      simpa [hk] using hinput
    rw [hk]
    exact ⟨_, dif_pos hlt, read24_toNat a b c, stepLevelOf_code d, hk, rfl, stepEdgeOf_code d⟩

theorem groupBytes_cons (g : Byte × Byte × Byte × Byte) (gs : List (Byte × Byte × Byte × Byte)) :
    groupBytes (g :: gs) = g.1 :: g.2.1 :: g.2.2.1 :: g.2.2.2 :: groupBytes gs := rfl

theorem groupBytes_length (gs : List (Byte × Byte × Byte × Byte)) :
    (groupBytes gs).length = 4 * gs.length := by
  induction gs with
  | nil => rfl
  | cons g gs ih => rw [groupBytes_cons]; simp only [List.length_cons, ih]; omega

theorem stepsOf_groupBytes_cons (n : Nat) (g : Byte × Byte × Byte × Byte)
    (gs : List (Byte × Byte × Byte × Byte)) :
    stepsOf n (groupBytes (g :: gs)) =
      match readGroup g with
      | none => .error n
      | some st =>
        match stepsOf (n + 1) (groupBytes gs) with
        | .error k => .error k
        | .ok steps => .ok (st :: steps) := rfl

/-- The first step that fails the check is told by its position (R8). -/
theorem stepsOf_of_fails {before after : List (Byte × Byte × Byte × Byte)}
    {g : Byte × Byte × Byte × Byte} (n : Nat) (hb : ∀ x ∈ before, stepFails x = false)
    (hg : stepFails g = true) :
    stepsOf n (groupBytes (before ++ g :: after)) = .error (n + before.length) := by
  induction before generalizing n with
  | nil => rw [List.nil_append, stepsOf_groupBytes_cons, readGroup_of_fails hg]; rfl
  | cons x xs ih =>
    obtain ⟨st, hst, _⟩ := readGroup_of_passes (hb x List.mem_cons_self)
    rw [List.cons_append, stepsOf_groupBytes_cons, hst]
    simp only [ih (n + 1) fun y hy => hb y (List.mem_cons_of_mem x hy), List.length_cons]
    congr 1
    omega

/-- Steps that all pass the check are stored as carried (R2, R8). -/
theorem stepsOf_of_passes {gs : List (Byte × Byte × Byte × Byte)} (n : Nat)
    (h : ∀ x ∈ gs, stepFails x = false) :
    ∃ steps, stepsOf n (groupBytes gs) = .ok steps ∧ List.Forall₂ StoredAs gs steps := by
  induction gs generalizing n with
  | nil => exact ⟨[], rfl, .nil⟩
  | cons g gs ih =>
    obtain ⟨st, hst, hstored⟩ := readGroup_of_passes (h g List.mem_cons_self)
    obtain ⟨steps, hsteps, hall⟩ := ih (n + 1) fun y hy => h y (List.mem_cons_of_mem g hy)
    refine ⟨st :: steps, ?_, .cons hstored hall⟩
    rw [stepsOf_groupBytes_cons, hst]
    simp only [hsteps]

theorem answerAppendSteps_of_groups {s : State} {id n : Byte}
    {groups : List (Byte × Byte × Byte × Byte)} (hl : groups.length = n.toNat) :
    answerAppendSteps s (id :: n :: groupBytes groups) =
      changeProgram s id fun q => appendSteps s q n (groupBytes groups) :=
  if_pos (by rw [groupBytes_length, hl])

/-- The state an APPEND_STEPS leaves: the steps are added and take their slots (R8). -/
def appended (s : State) (q : Fin 32) (steps : List ProgStep) (n : Nat) : State :=
  { popRequest s with store :=
      { programs := s.store.programs.set q { s.prog q with steps := (s.prog q).steps ++ steps }
        freeSlots := s.store.freeSlots - n } }

/-- Settles O12: the carried steps are read one by one, and the checks follow in their order. -/
theorem appendAddsAllStepsOrNone : Obligations.AppendAddsAllStepsOrNone := by
  intro s r id n groups hs hk ho hp hl
  have ho' : (popRequest s).session.state = .opened := ho
  have happend : Answers .appendSteps answerAppendSteps := ⟨_, rfl, fun _ => rfl⟩
  have hexec : ∀ {result fields t},
      changeProgram (popRequest s) id
        (fun q => appendSteps (popRequest s) q n (groupBytes groups)) = (⟨result, fields⟩, t) →
      Executed .appendSteps s r result fields t := fun h =>
    happend.executed hs (congrArg some hk.symm) (hp ▸ (answerAppendSteps_of_groups hl).trans h)
  refine ⟨fun hid => hexec (changeProgram_of_out _ ho' hid), fun q hq => ?_⟩
  have hrun : ∀ {result fields t},
      appendSteps (popRequest s) q n (groupBytes groups) = (⟨result, fields⟩, t) →
      Executed .appendSteps s r result fields t := fun h =>
    hexec ((changeProgram_of_names _ ho' hq).trans h)
  refine ⟨fun hn => hrun (if_pos ?_),
    fun h1 h16 => ⟨fun before g after hg hb hf => ?_, fun hall => ?_⟩⟩
  · rcases hn with rfl | hn
    · exact .inl rfl
    · exact .inr hn
  · have hsteps := stepsOf_of_fails (after := after) 0 hb hf
    rw [← hg, Nat.zero_add] at hsteps
    refine hrun ?_
    rw [appendSteps]
    dsimp only
    rw [if_neg (by omega), hsteps]
    rfl
  obtain ⟨steps, hsteps, hstored⟩ := stepsOf_of_passes 0 hall
  have hlen : steps.length = n.toNat := hstored.length_eq.symm.trans hl
  have hrest : ∀ {result fields t},
      (if (s.prog q).state ≠ .opened then (storeAnswer (popRequest s) .state 0, popRequest s)
       else if 64 < (s.prog q).steps.length + n.toNat then
         (storeAnswer (popRequest s) .badValue 0x40, popRequest s)
       else if s.store.freeSlots < n.toNat then
         (storeAnswer (popRequest s) .noSpace 0, popRequest s)
       else
         (storeAnswer (appended s q steps n.toNat) .ok ((s.prog q).steps.length + n.toNat),
           appended s q steps n.toNat)) = (⟨result, fields⟩, t) →
      Executed .appendSteps s r result fields t := fun h => by
    refine hrun (Eq.trans ?_ h)
    rw [appendSteps]
    dsimp only
    rw [if_neg (by omega), hsteps, ← hlen]
    rfl
  refine ⟨fun he => hrest (if_pos he), fun he => ⟨fun h64 => ?_, fun h64 => ⟨fun hf => ?_,
    fun hf => ⟨steps, hstored, ?_⟩⟩⟩⟩
  · exact hrest ((if_neg (not_not.mpr he)).trans (if_pos h64))
  · exact hrest ((if_neg (not_not.mpr he)).trans
      ((if_neg (Nat.not_lt_of_le h64)).trans (if_pos hf)))
  · rintro t rfl
    exact hrest ((if_neg (not_not.mpr he)).trans
      ((if_neg (Nat.not_lt_of_le h64)).trans (if_neg (Nat.not_lt_of_le hf))))

/-! ## BIND on an OFF channel -/

theorem answerBind_of_badChannel {s : State} {x : Byte} {rest : List Byte}
    (ho : s.session.state = .opened) (hl : rest.length = 12) (hx : 8 ≤ x.toNat) :
    answerBind s (x :: rest) = (refusal .badValue 3, s) :=
  match rest, hl with
  | [_, _, _, _, _, _, _, _, _, _, _, _], _ => by
    rw [answerBind, inSession_of_opened ho, channelOf_of_large hx]

theorem answerBind_of_badFields {s : State} {c : Fin 8}
    {id base mode idle overlap stall d0 d1 d2 d3 l0 l1 : Byte} (ho : s.session.state = .opened)
    (hid : id ≠ 0)
    (hbad : 32 < id.toNat ∨ 1 < base.toNat ∨ 1 < mode.toNat ∨ 1 < idle.toNat ∨
      1 < overlap.toNat ∨ 1 < stall.toNat ∨
      16777215 < d0.toNat + 256 * d1.toNat + 65536 * d2.toNat + 16777216 * d3.toNat) :
    answerBind s [byteOf c.val, id, base, mode, idle, overlap, stall, d0, d1, d2, d3, l0, l1] =
      (bindAnswer s c .badValue, s) := by
  rw [← read32_toNat] at hbad
  rw [answerBind, inSession_of_opened ho, channelOf_byteOf]
  dsimp only
  rw [if_neg hid]
  rcases hbad with hid32 | hbad
  · rw [programOf_of_out (.inr hid32)]
  · cases programOf id with
    | none => rfl
    | some q => dsimp only; rw [bindingOf_of_bad hbad]

/-- The fields of a binding are read back whole (R73, section 10.3). -/
theorem answerBind_of_bytes {s : State} {c : Fin 8} (b : Binding)
    (ho : s.session.state = .opened) :
    answerBind s (byteOf c.val :: b.bytes) = bindProgram s c b := by
  show answerBind s [byteOf c.val, programCode b.program, _, _, _, _, _, _, _, _, _, _, _] = _
  rw [answerBind, inSession_of_opened ho, channelOf_byteOf]
  dsimp only
  rw [programCode, if_neg (byteOf_program_ne _), programOf_byteOf]
  dsimp only
  rw [read32_le32, read16_le16, bindingOf_fields]

theorem answerBind_of_zero {s : State} {c : Fin 8} {rest : List Byte}
    (ho : s.session.state = .opened) (hl : rest.length = 11) :
    answerBind s (byteOf c.val :: 0 :: rest) = bindNothing s c :=
  match rest, hl with
  | [_, _, _, _, _, _, _, _, _, _, _], _ => by
    rw [answerBind, inSession_of_opened ho, channelOf_byteOf]
    rfl

/-- Installation in one rule: use counts, then the channel's record (R75, R98). -/
theorem installBinding_eq (s : State) (c : Fin 8) (b : Binding) :
    installBinding s c b =
      (releaseUse (raiseUse s b.program) (s.chan c).active).setChan c
        (if b.base = .line ∧ (s.chan c).lineBound = false then
          { s.chan c with active := some b, output := b.idle
                          presetsTaken := s.line.presetsMade, coords := s.line.offsetSum
                          presets := [] }
         else { s.chan c with active := some b, output := b.idle }) := by
  unfold installBinding
  dsimp only
  split
  · simp only [modChan_eq, setChan_chan_same, setChan_setChan, releaseUse_chan, raiseUse_chan]
  · simp only [modChan_eq, releaseUse_chan, raiseUse_chan]

theorem removeBinding_eq (s : State) (c : Fin 8) :
    removeBinding s c =
      (releaseUse s (s.chan c).active).setChan c
        { s.chan c with active := none, output := .low } := by
  simp only [removeBinding, modChan_eq, releaseUse_chan]

theorem bindAnswer_installBinding {s : State} {c : Fin 8} (b : Binding)
    (hoff : (s.chan c).state = .off) :
    bindAnswer (installBinding s c b) c .ok =
      { result := .ok
        fields := [0, byteOf (b.program.val + 1), bindingProgram (s.chan c).pending] } := by
  rw [installBinding_eq, bindAnswer, setChan_chan_same]
  split <;> simp only [hoff] <;> rfl

/-- Settles O14: what BIND reads of its payload, then installation and removal. -/
theorem bindInstallsOnOffChannel : Obligations.BindInstallsOnOffChannel := by
  intro s r hs hk ho
  have ho' : (popRequest s).session.state = .opened := ho
  have hbind : Answers .bind answerBind := ⟨_, rfl, fun _ => rfl⟩
  have hkind := congrArg some hk.symm
  refine ⟨fun x rest hp hl hx => ?_, fun c fields hfields => ⟨?_, fun hoff => ⟨fun b hp => ?_,
    fun rest hp hl => ?_⟩⟩⟩
  · exact hbind.executed hs hkind (hp ▸ answerBind_of_badChannel ho' hl hx)
  · intro id base mode idle overlap stall d0 d1 d2 d3 l0 l1 hp hid hbad
    subst hfields
    exact hbind.executed hs hkind (hp ▸ answerBind_of_badFields ho' hid hbad)
  · have hrun : ∀ {result fields t}, bindProgram (popRequest s) c b = (⟨result, fields⟩, t) →
        Executed .bind s r result fields t := fun h =>
      hbind.executed hs hkind (hp ▸ (answerBind_of_bytes b ho').trans h)
    subst hfields
    refine ⟨fun he => hrun (if_pos he), fun he hm hc => hrun ?_, fun he hne => hrun ?_⟩
    · exact (if_neg (not_not.mpr he)).trans (if_pos ⟨hm, hc⟩)
    · have hforced : ((popRequest s).chan c).state ≠ .forced := by
        rw [popRequest_chan, hoff]; decide
      refine (if_neg (not_not.mpr he)).trans ((if_neg hne).trans ((if_neg hforced).trans
        ((if_pos hoff).trans ?_)))
      rw [bindAnswer_installBinding (s := popRequest s) b hoff, installBinding_eq]
      rfl
  · refine hbind.executed hs hkind (hp ▸ (answerBind_of_zero ho' hl).trans ?_)
    have hremove : bindNothing (popRequest s) c =
        (bindAnswer (removeBinding (popRequest s) c) c .ok, removeBinding (popRequest s) c) := by
      rw [bindNothing, popRequest_chan, hoff]
    rw [hremove, removeBinding_eq, bindAnswer, setChan_chan_same]
    simp only [popRequest_chan, hoff]
    rfl

/-! ## Work ended channel by channel -/

/-- The work of one channel ended, by HALT or the cutoff (R27, R132). -/
def endWork (o : FiringOutcome) (cause : MissedCause) (state : ChanState) (level : Channel → Level)
    (s : State) (c : Fin 8) : State :=
  ((releaseUse s (s.chan c).pending).setChan c
      ((s.chan c).stopped state (level (s.chan c)))).withSession
    (submitAll (endReports c (s.chan c) (chanNow s c) o ++ flushReports c (s.chan c) cause)
      s.session)

theorem haltChannel_eq_endWork (s : State) (c : Fin 8) :
    haltChannel s c = endWork .abortedHalt .halted .off Channel.idleLevel s c := haltChannel_eq s c

theorem forceChannel_eq_endWork (s : State) (c : Fin 8) :
    forceChannel s c = endWork .abortedCutoff .cutoff .forced Channel.safeLevel s c :=
  forceChannel_eq s c

/-- Ended work moves the channels, the use counts and the session, and nothing else. -/
theorem endWork_eq (o : FiringOutcome) (cause : MissedCause) (state : ChanState)
    (level : Channel → Level) (s : State) (c : Fin 8) :
    endWork o cause state level s c =
      { s with channels := (endWork o cause state level s c).channels
               store := (endWork o cause state level s c).store
               session := (endWork o cause state level s c).session } := by
  unfold endWork
  cases (s.chan c).pending <;> rfl

theorem endWork_stampNow (o : FiringOutcome) (cause : MissedCause) (state : ChanState)
    (level : Channel → Level) (s : State) (c : Fin 8) :
    stampNow (endWork o cause state level s c) = stampNow s := by
  rw [endWork_eq]
  rfl

/-- Released use counts depend on the store alone. -/
theorem releaseUse_store_congr {s t : State} (b : Option Binding) (h : s.store = t.store) :
    (releaseUse s b).store = (releaseUse t b).store := by
  cases b with
  | none => exact h
  | some b => simp [releaseUse, lowerUse, State.setProg, State.prog, h]

theorem releaseUse_foldl_store_congr (f : Fin 8 → Option Binding) (cs : List (Fin 8))
    {s t : State} (h : s.store = t.store) :
    (cs.foldl (fun u c => releaseUse u (f c)) s).store =
      (cs.foldl (fun u c => releaseUse u (f c)) t).store := by
  induction cs generalizing s t with
  | nil => exact h
  | cons c cs ih => exact ih (releaseUse_store_congr (f c) h)

/-- The channels that `p` picks have their work ended one after another: each is told of as it
stood, and only the channels, the use counts and the session move. -/
theorem foldl_endWork (o : FiringOutcome) (cause : MissedCause) (state : ChanState)
    (level : Channel → Level) (p : Channel → Bool) (cs : List (Fin 8)) (hn : cs.Nodup)
    (s t : State)
    (ht : t = cs.foldl (fun u c => if p (u.chan c) then endWork o cause state level u c else u) s)
    (picked : List (Fin 8)) (hpicked : picked = cs.filter fun c => p (s.chan c)) :
    (∀ c, t.chan c =
      if c ∈ cs ∧ p (s.chan c) = true then (s.chan c).stopped state (level (s.chan c))
      else s.chan c) ∧
    t.store = (picked.foldl (fun u c => releaseUse u (s.chan c).pending) s).store ∧
    t.session =
      submitAll (picked.flatMap fun c =>
        endReports c (s.chan c) (chanNow s c) o ++ flushReports c (s.chan c) cause) s.session ∧
    t = { s with channels := t.channels, store := t.store, session := t.session } := by
  induction cs generalizing s t picked with
  | nil => subst ht hpicked; simp
  | cons c cs ih =>
    obtain ⟨hc, hn⟩ := List.nodup_cons.mp hn
    rw [List.foldl_cons] at ht
    by_cases hp : p (s.chan c) = true
    · rw [if_pos hp] at ht
      have hother : ∀ d, d ≠ c →
          (endWork o cause state level s c).chan d = s.chan d := fun d hd => by
        rw [endWork, withSession_chan, setChan_chan_ne _ _ hd, releaseUse_chan]
      have hmem : ∀ d ∈ cs, (endWork o cause state level s c).chan d = s.chan d :=
        fun d hd => hother d fun h => hc (h ▸ hd)
      have hnow : ∀ d ∈ cs, chanNow (endWork o cause state level s c) d = chanNow s d :=
        fun d hd => by rw [chanNow, chanNow, hmem d hd, endWork_stampNow]
      have hfilter : (cs.filter fun d => p ((endWork o cause state level s c).chan d)) =
          cs.filter fun d => p (s.chan d) := List.filter_congr fun d hd => by rw [hmem d hd]
      have hin : ∀ d ∈ cs.filter fun d => p (s.chan d), d ∈ cs := fun d hd =>
        List.mem_of_mem_filter hd
      obtain ⟨hchan, hstore, hsession, heq⟩ := ih hn _ t ht _ hfilter.symm
      rw [List.filter_cons_of_pos (p := fun d => p (s.chan d)) hp] at hpicked
      subst hpicked
      refine ⟨fun d => ?_, ?_, ?_, heq.trans (by rw [endWork_eq])⟩
      · rw [hchan]
        by_cases hd : d = c
        · subst hd
          simp [hc, hp, endWork]
        · simp [hother d hd, hd]
      · rw [hstore, List.foldl_cons, List.foldl_ext _ _ _ fun u d hd => by rw [hmem d (hin d hd)]]
        exact releaseUse_foldl_store_congr _ _ rfl
      · rw [hsession, List.flatMap_cons, submitAll_append,
          List.flatMap_congr fun d hd => by rw [hmem d (hin d hd), hnow d (hin d hd)]]
        rfl
    · rw [if_neg hp] at ht
      rw [List.filter_cons_of_neg (p := fun d => p (s.chan d)) hp] at hpicked
      obtain ⟨hchan, hrest⟩ := ih hn s t ht picked hpicked
      refine ⟨fun d => ?_, hrest⟩
      rw [hchan]
      by_cases hd : d = c
      · subst hd; simp [hc, hp]
      · simp [hd]

/-! ## CLOSE_SESSION -/

theorem submitAll_number (reports : List ReportBody) (se : Session) :
    (submitAll reports se).number = se.number := by
  induction reports generalizing se with
  | nil => rfl
  | cons b bs ih => rw [submitAll_cons, ih, submit_number]

theorem openDiscarded_congr {s u t : State} (h : s.store = u.store) (hd : OpenDiscarded s t) :
    OpenDiscarded u t := by
  have hprog : ∀ q, u.prog q = s.prog q := fun q => by simp [State.prog, h]
  simp only [OpenDiscarded, hprog, ← h]
  exact hd

theorem quiesce_eq_foldl (s : State) :
    quiesce s = allChannels.foldl (fun u c => if (u.chan c).haltable = true then
      endWork .abortedHalt .halted .off Channel.idleLevel u c else u) s := by
  have hone : quiesceChannel = fun u c => if (u.chan c).haltable = true then
      endWork .abortedHalt .halted .off Channel.idleLevel u c else u := by
    funext u c
    rw [quiesceChannel, haltChannel_eq_endWork]
  rw [quiesce, hone]

/-- All that quiesce does: the channels in service are halted in increasing number, each told of as
it stood (R27, R161). -/
theorem quiesce_spec (s t : State) (ht : t = quiesce s) (halted : List (Fin 8))
    (hhalted : halted = allChannels.filter fun c => (s.chan c).haltable) :
    (∀ c, t.chan c =
      if (s.chan c).haltable = true then (s.chan c).stopped .off (s.chan c).idleLevel
      else s.chan c) ∧
    t.store = (halted.foldl (fun u c => releaseUse u (s.chan c).pending) s).store ∧
    t.session =
      submitAll (halted.flatMap fun c =>
        endReports c (s.chan c) (chanNow s c) .abortedHalt ++
          flushReports c (s.chan c) .halted) s.session ∧
    t = { s with channels := t.channels, store := t.store, session := t.session } := by
  have hall : ∀ c, c ∈ allChannels := by decide
  obtain ⟨hchan, hrest⟩ := foldl_endWork .abortedHalt .halted .off Channel.idleLevel
    Channel.haltable allChannels (by decide) s t (ht.trans (quiesce_eq_foldl s)) halted hhalted
  exact ⟨fun c => by rw [hchan]; simp [hall], hrest⟩

/-- Settles O33: quiesce by `quiesce_spec`, then the close by `closeSession_spec`. -/
theorem closeSessionEndsTheSession : Obligations.CloseSessionEndsTheSession := by
  intro s r q hs hk ho hp
  have ho' : (popRequest s).session.state = .opened := ho
  have hclose : Answers .closeSession answerCloseSession := ⟨_, rfl, fun _ => rfl⟩
  have hrun : ∀ {result fields t},
      (match boolOf q with
       | none => (refusal .badValue 2, popRequest s)
       | some true =>
         ({ result := .ok, fields := [s.session.number, haltedSet s] },
          closeSession (quiesce (popRequest s)) .request)
       | some false =>
         ({ result := .ok, fields := [s.session.number, 0] },
          closeSession (popRequest s) .request)) = (⟨result, fields⟩, t) →
      Executed .closeSession s r result fields t := fun h =>
    hclose.executed hs (congrArg some hk.symm) (hp ▸ (inSession_of_opened ho').trans h)
  refine ⟨fun hq => hrun ?_, fun quiesced hq => ?_⟩
  · obtain ⟨hnone, _⟩ := twoValues_of_large hq
    rw [hnone]
    rfl
  cases quiesced with
  | false =>
    subst hq
    obtain ⟨hd, heq⟩ := closeSession_spec (popRequest s) _ .request rfl
    refine ⟨_, hrun rfl, ?_⟩
    generalize closeSession (popRequest s) .request = t at hd heq
    rw [heq]
    exact ⟨rfl, rfl, rfl, rfl, rfl, rfl, rfl, rfl, fun _ => ⟨rfl, rfl, hd⟩, fun h => by cases h⟩
  | true =>
    subst hq
    obtain ⟨hd, heq⟩ := closeSession_spec (quiesce (popRequest s)) _ .request rfl
    obtain ⟨hchan, hstore, hsession, hframe⟩ := quiesce_spec (popRequest s) _ rfl _ rfl
    refine ⟨_, hrun rfl, ?_⟩
    generalize closeSession (quiesce (popRequest s)) .request = t at hd heq
    generalize quiesce (popRequest s) = u at hd heq hchan hstore hsession hframe
    have hnumber : u.session.number = s.session.number := by
      rw [hsession, submitAll_number, popRequest_session]
    have htsession : t.session = u.session.closed .request := by rw [heq]
    refine ⟨?_, by rw [heq, hframe], by rw [heq, hframe]; rfl, by rw [heq, hframe]; rfl,
      by rw [heq, hframe]; rfl, by rw [heq, hframe]; rfl, by rw [heq, hframe]; rfl,
      by rw [heq, hframe]; rfl, fun h => (by cases h), ?_⟩
    · rw [htsession]
      simp only [Session.closed, hnumber]
    · rintro _ halted rfl
      refine ⟨openDiscarded_congr hstore hd, ?_, fun c => ?_⟩
      · rw [htsession, Session.closed, hsession]
        rfl
      · have : t.chan c = u.chan c := by rw [heq]; rfl
        rw [this, hchan]
        rfl

/-! ## RESTART -/

/-- Discarding the OPEN program a second time changes nothing. -/
theorem openDiscarded_trans {s t u : State} (h1 : OpenDiscarded s t) (h2 : OpenDiscarded t u) :
    OpenDiscarded s u := by
  obtain ⟨hprog1, hfree1⟩ := h1
  obtain ⟨hprog2, hfree2⟩ := h2
  have hnone : ∀ q, (t.prog q).state ≠ .opened := fun q => by
    rw [hprog1]
    split
    · decide
    · assumption
  refine ⟨fun q => by rw [hprog2, if_neg (hnone q), hprog1], ?_⟩
  rw [hfree2, ← hfree1, List.filter_eq_nil_iff.mpr fun q _ => by simpa using hnone q]
  rfl

/-- Steps 1 and 2 of RESTART and the OPEN program's discard: the session closes, the link is
re-initialised, and no program is OPEN (R157). -/
theorem discardOpen_restartLink_spec (s t : State)
    (ht : t = discardOpen (restartLink (closeForRestart s))) :
    OpenDiscarded s t ∧ ∃ capture, t = { s with
      store := t.store
      session := if s.session.state = .opened then s.session.closed .restart else s.session
      capture := capture
      link := s.link.restart } := by
  obtain ⟨hd, heq⟩ := discardOpen_spec _ t ht
  unfold closeForRestart at hd heq
  by_cases ho : s.session.state = .opened
  · rw [if_pos ho] at hd heq
    obtain ⟨hd1, heq1⟩ := closeSession_spec s _ .restart rfl
    generalize closeSession s .restart = u at hd hd1 heq heq1
    refine ⟨openDiscarded_trans hd1 (openDiscarded_congr rfl hd), u.capture, ?_⟩
    rw [if_pos ho, heq, heq1]
    rfl
  · rw [if_neg ho] at hd heq
    refine ⟨hd, s.capture, ?_⟩
    rw [if_neg ho]
    exact heq

/-- Every channel re-initialised, one after another, with the use counts its bindings held
released (R48). -/
theorem foldl_restartChannel (cs : List (Fin 8)) (hn : cs.Nodup) (s t : State)
    (ht : t = cs.foldl restartChannel s) :
    (∀ c, t.chan c = if c ∈ cs then Channel.init else s.chan c) ∧
    (∀ q, t.prog q = { s.prog q with
      useCount := (s.prog q).useCount - (cs.map fun c => (s.chan c).naming q).sum }) ∧
    t.store.freeSlots = s.store.freeSlots ∧
    t = { s with channels := t.channels, store := t.store } := by
  induction cs generalizing s t with
  | nil => subst ht; simp
  | cons c cs ih =>
    obtain ⟨hc, hn⟩ := List.nodup_cons.mp hn
    obtain ⟨hchan, hprog, hfree, heq⟩ := ih hn (restartChannel s c) t ht
    have hother : ∀ d, d ≠ c → (restartChannel s c).chan d = s.chan d := fun d hd => by
      rw [restartChannel, setChan_chan_ne _ _ hd, releaseBindings, releaseUse_chan,
        releaseUse_chan]
    have hsame : ∀ d ∈ cs, (restartChannel s c).chan d = s.chan d :=
      fun d hd => hother d fun h => hc (h ▸ hd)
    have hhead : ∀ q, (restartChannel s c).prog q = { s.prog q with
        useCount := (s.prog q).useCount - (s.chan c).naming q } := fun q => by
      rw [restartChannel, setChan_prog, releaseBindings, releaseUse_prog, releaseUse_prog,
        naming_eq, Nat.sub_sub]
    refine ⟨fun d => ?_, fun q => ?_, ?_, ?_⟩
    · rw [hchan]
      by_cases hd : d = c
      · subst hd; simp [hc, restartChannel]
      · simp [hd, hother d hd]
    · rw [hprog, hhead, List.map_congr_left fun d hd => by rw [hsame d hd], List.map_cons,
        List.sum_cons, Nat.sub_sub]
    · rw [hfree, restartChannel, setChan_store, releaseBindings, releaseUse_freeSlots,
        releaseUse_freeSlots]
    · refine heq.trans ?_
      unfold restartChannel releaseBindings
      cases (s.chan c).active <;> cases (s.chan c).pending <;> rfl

/-- Re-initialised channels are forced from OFF when the latch is TRIPPED: they have no work to end,
and nothing but their state moves (R139). -/
theorem forceWhenTripped_spec (s t : State) (ht : t = forceWhenTripped s)
    (hinit : ∀ c, s.chan c = Channel.init) :
    (∀ c, t.chan c = { Channel.init with
      state := if s.cutoff.latch = .tripped then .forced else .off }) ∧
    t = { s with channels := t.channels } := by
  unfold forceWhenTripped at ht
  cases hlatch : s.cutoff.latch with
  | clear =>
    rw [hlatch] at ht
    subst ht
    exact ⟨hinit, rfl⟩
  | tripped =>
    rw [hlatch] at ht
    have hfold : t = allChannels.foldl (fun u c =>
        if (fun _ => true) (u.chan c) = true then
          endWork .abortedCutoff .cutoff .forced Channel.safeLevel u c else u) s := by
      simpa only [if_true, ← forceChannel_eq_endWork] using ht
    have hall : ∀ c, c ∈ allChannels := by decide
    obtain ⟨hchan, hstore, hsession, heq⟩ := foldl_endWork .abortedCutoff .cutoff .forced
      Channel.safeLevel (fun _ => true) allChannels (by decide) s t hfold _ rfl
    have hst : t.store = s.store := by
      rw [hstore]
      simp [hinit, Channel.init]
    have hse : t.session = s.session := by
      rw [hsession, List.flatMap_eq_nil_iff.mpr fun c _ => by rw [hinit]; rfl]
      rfl
    refine ⟨fun c => ?_, heq.trans (by rw [hst, hse])⟩
    rw [hchan, if_pos ⟨hall c, rfl⟩, hinit]
    rfl

/-- All that the soft reset does (R157). -/
theorem softReset_spec (s t : State) (ht : t = softReset s) :
    t = { s with
      store := t.store
      channels := t.channels
      session := if s.session.state = .opened then s.session.closed .restart else s.session
      link := s.link.restart
      line := s.line.restart
      capture := Capture.init
      cutoff := { s.cutoff with candidate := none } } ∧
    (∀ c, t.chan c = { Channel.init with
      state := if s.cutoff.latch = .tripped then .forced else .off }) ∧
    ∃ u, OpenDiscarded s u ∧ t.store.freeSlots = u.store.freeSlots ∧
      ∀ q, t.prog q = { u.prog q with
        useCount := (u.prog q).useCount - bindingsNaming s q } := by
  unfold softReset at ht
  obtain ⟨hd, capture, hu⟩ := discardOpen_restartLink_spec s _ rfl
  generalize discardOpen (restartLink (closeForRestart s)) = u at ht hd hu
  obtain ⟨hinit, hprog, hfree, hv⟩ := foldl_restartChannel allChannels (by decide) u
    (restartChannels u) rfl
  generalize restartChannels u = v at ht hinit hprog hfree hv
  have hall : ∀ c, c ∈ allChannels := by decide
  obtain ⟨hchan, heq⟩ := forceWhenTripped_spec (restartUnits v) t ht fun c => by
    rw [← if_pos (hall c) (t := Channel.init) (e := u.chan c), ← hinit c]
    rfl
  have hnaming : ∀ q, (allChannels.map fun c => (u.chan c).naming q).sum = bindingsNaming s q :=
    fun q => by rw [hu]; rfl
  refine ⟨?_, fun c => ?_, u, hd, ?_, fun q => ?_⟩
  · have hstore : t.store = v.store := by rw [heq]; rfl
    refine heq.trans ?_
    rw [hstore, hv, hu]
    rfl
  · have hlatch : (restartUnits v).cutoff.latch = s.cutoff.latch := by
      show v.cutoff.latch = _
      rw [hv, hu]
    rw [hchan, hlatch]
  · rw [heq, ← hfree]; rfl
  · rw [← hnaming, ← hprog, heq]; rfl

theorem exec_transmissionEnd_of_restart {s : State} {f : Frame} {left : Int}
    (ht : s.link.transmitter = .sending f left) (hleft : left ≤ 0)
    (hpending : s.link.restartPending = true) (hqueue : s.link.replyQueue = []) :
    exec .transmissionEnd s =
      .next (softReset { s with link := { s.link with transmitter := .idle } }) := by
  show execTransmissionEnd s = _
  unfold execTransmissionEnd endTransmission
  simp only [ht, if_pos hleft, hpending, hqueue, true_and, if_true]

/-- Settles O35: the soft reset by `softReset_spec`, on the state with TXD idle. -/
theorem restartActsAfterItsReply : Obligations.RestartActsAfterItsReply := by
  have hrestart : Answers .restart answerRestart := ⟨_, rfl, fun _ => rfl⟩
  refine ⟨fun s r hs hk hp => hrestart.executed hs (congrArg some hk.symm) (by rw [hp]; rfl),
    fun s f left ht hleft hpending hqueue => ?_⟩
  refine ⟨_, exec_transmissionEnd_of_restart ht hleft hpending hqueue, ?_⟩
  obtain ⟨heq, hchan, u, ⟨hdprog, hdfree⟩, hfree, hprog⟩ := softReset_spec _ _ rfl
  generalize softReset { s with link := { s.link with transmitter := .idle } } = t
    at heq hchan hfree hprog
  have hcapture : t.capture = Capture.init := by rw [heq]
  refine ⟨by rw [heq], by rw [heq]; rfl, by rw [heq]; rfl, fun i => ?_, fun id => ?_,
    by rw [hcapture]; rfl, by rw [hcapture]; rfl, by rw [hcapture]; rfl, by rw [hcapture]; rfl,
    by rw [hcapture]; rfl, by rw [heq], hchan, fun q => ⟨fun ho => ?_, fun ho => ?_⟩,
    hfree.trans hdfree, by rw [heq], by rw [heq], by rw [heq], by rw [heq]⟩
  · simp [State.input, hcapture, Capture.init, CapInput.init]
  · simp [State.route, hcapture, Capture.init]
  · have hu : u.prog q = Program.none := (hdprog q).trans (if_pos ho)
    rw [hprog, hu]
    simp [Program.none]
  · have hu : u.prog q = s.prog q := (hdprog q).trans (if_neg ho)
    rw [hprog, hu]
    refine ⟨rfl, rfl, rfl, rfl, fun ⟨hcount, _⟩ => ?_⟩
    exact Nat.sub_eq_zero_of_le (hcount q).le

end Sys2Proof.Machine

namespace Sys2Proof.Machine

/-! ## What the channel laws read -/

/-- The agreement of one channel with the timebase unit on the presets made (R69, R98). -/
def PresetsAgree (l : LineUnit) (ch : Channel) : Prop :=
  ch.lineBound = true →
    ch.presetsTaken + BitVec.ofNat 16 ch.presets.length = l.presetsMade ∧
      ch.coords + ch.presets.sum = l.offsetSum

/-- One channel keeps its law and its agreement on the presets. -/
def LawfulChannel (l : LineUnit) (ch : Channel) : Prop := ChannelLaw ch ∧ PresetsAgree l ch

/-- Every channel does: the two laws of the statement, channel by channel. -/
def ChannelsLaw (s : State) : Prop := ∀ c, LawfulChannel s.line (s.chan c)

theorem channelsLaw_iff {s : State} :
    ChannelsLaw s ↔ (∀ c, ChannelLaw (s.chan c)) ∧ PresetLaw s := forall_and

/-- A channel record less the fields that no channel law reads: membership, the counters, the next
number, and the triggers, offers and notices not yet taken. -/
def Channel.lawPart (ch : Channel) : Channel :=
  { ch with member := false, accepted := 0, completed := 0, aborted := 0, missed := 0
            nextNumber := 0, triggers := [], offers := [], stallNotices := 0 }

/-- All that the channel laws read of a state. -/
def channelView (s : State) : Half × Word × (Fin 8 → Channel) :=
  (s.line.presetsMade, s.line.offsetSum, fun c => (s.chan c).lawPart)

theorem channelView_eq_iff {s t : State} :
    channelView t = channelView s ↔ t.line.presetsMade = s.line.presetsMade ∧
      t.line.offsetSum = s.line.offsetSum ∧ ∀ c, (t.chan c).lawPart = (s.chan c).lawPart := by
  simp [channelView, funext_iff]

theorem channelView_of_channels {s t : State} (hline : t.line = s.line)
    (hchan : t.channels = s.channels) : channelView t = channelView s := by
  simp [channelView, State.chan, hline, hchan]

theorem LawfulChannel.of_lawPart {l m : LineUnit} {ch ch' : Channel} (h : LawfulChannel l ch)
    (hmade : m.presetsMade = l.presetsMade) (hsum : m.offsetSum = l.offsetSum)
    (hpart : ch'.lawPart = ch.lawPart) : LawfulChannel m ch' := by
  have hlaw : LawfulChannel l ch.lawPart := h
  rw [← hpart] at hlaw
  unfold LawfulChannel PresetsAgree
  rw [hmade, hsum]
  exact hlaw

/-- The laws read nothing but the view. -/
theorem ChannelsLaw.of_view {s t : State} (hs : ChannelsLaw s)
    (hv : channelView t = channelView s) : ChannelsLaw t := by
  obtain ⟨hmade, hsum, hpart⟩ := channelView_eq_iff.mp hv
  exact fun c => (hs c).of_lawPart hmade hsum (hpart c)

/-! ## What a channel record may be

A record keeps its law in one of three ways: it holds no work, a firing or pass is in progress, or
it rests under a TRIGGERED binding between firings. -/

/-- The channel holds no work: nothing in progress, queued or pending (R21). -/
structure Workless (l : LineUnit) (ch : Channel) : Prop where
  firing : ch.firing = none
  queue : ch.queue = []
  pending : ch.pending = none
  presets : PresetsAgree l ch

/-- A firing or pass `f` is in progress under the binding `b` (R21, R29, R76). -/
structure InProgress (b : Binding) (f : Firing) (l : LineUnit) (ch : Channel) : Prop where
  service : ch.state = .running ∨ ch.state = .draining
  active : ch.active = some b
  firing : ch.firing = some f
  room : ch.queue.length ≤ 16
  queue : b.mode = .continuous → ch.queue = []
  pending : ∀ p ∈ ch.pending, p.base = b.base ∧ p.mode = b.mode
  timed : f.entry.isSome = f.lateness.isSome
  carries : f.entry.isSome = true ↔ b.mode = .triggered
  presets : PresetsAgree l ch

/-- Nothing is in progress under the TRIGGERED binding `b`, in whatever state; a pending binding is
there only in the event in which a firing has ended (R62). -/
structure Resting (b : Binding) (l : LineUnit) (ch : Channel) : Prop where
  active : ch.active = some b
  mode : b.mode = .triggered
  firing : ch.firing = none
  room : ch.queue.length ≤ 16
  pending : ∀ p ∈ ch.pending, p.base = b.base ∧ p.mode = b.mode
  presets : PresetsAgree l ch

theorem Workless.lawful_of_off {l : LineUnit} {ch : Channel} (h : Workless l ch)
    (hstate : ch.state = .off) (hout : ch.output = ch.idleLevel) : LawfulChannel l ch := by
  obtain ⟨hf, hq, hp, hl⟩ := h
  refine ⟨⟨by simp [hq], fun _ => ⟨hf, hq, hp⟩, ?_, ?_, ?_, ?_⟩, hl⟩
  · simp [ServiceLaw, Channel.inService, hstate, hq]
  · simp [PendingLaw, hp]
  · simp [OutputLaw, hstate, hout]
  · simp [FiringLaw, hf]

theorem Workless.lawful_of_forced {l : LineUnit} {ch : Channel} (h : Workless l ch)
    (hstate : ch.state = .forced) (hout : ch.output = ch.safeLevel) : LawfulChannel l ch := by
  obtain ⟨hf, hq, hp, hl⟩ := h
  refine ⟨⟨by simp [hq], fun _ => ⟨hf, hq, hp⟩, ?_, ?_, ?_, ?_⟩, hl⟩
  · simp [ServiceLaw, Channel.inService, hstate, hq]
  · simp [PendingLaw, hp]
  · simp [OutputLaw, hstate, hout]
  · simp [FiringLaw, hf]

theorem LawfulChannel.workless {l : LineUnit} {ch : Channel} (h : LawfulChannel l ch)
    (hstate : ch.state = .off ∨ ch.state = .forced) : Workless l ch := by
  obtain ⟨⟨_, hrest, _⟩, hl⟩ := h
  obtain ⟨hf, hq, hp⟩ := hrest hstate
  exact ⟨hf, hq, hp, hl⟩

theorem InProgress.lawful {b : Binding} {f : Firing} {l : LineUnit} {ch : Channel}
    (h : InProgress b f l ch) : LawfulChannel l ch := by
  obtain ⟨hstate, ha, hf, hroom, hq, hp, ht, hc, hl⟩ := h
  refine ⟨⟨hroom, fun h => ?_, ?_, fun p hp' => ?_, ?_, ?_⟩, hl⟩
  · rcases hstate with hs | hs <;> simp [hs] at h
  · refine ⟨fun h => ?_, fun _ => by simp [hf], fun _ => by simp [ha], fun h => ⟨?_, ?_⟩⟩
    · rcases hstate with hs | hs <;> simp [hs] at h
    · exact hq (by simpa [ha] using h)
    · simp [hf]
  · simp [hf, ha, hp p hp']
  · rcases hstate with hs | hs <;> simp [OutputLaw, hs, hf]
  · simp [FiringLaw, hf, ha, ht, ← hc]

/-- A lawful channel with a firing or pass is in service, under an active binding. -/
theorem LawfulChannel.inProgress {l : LineUnit} {ch : Channel} {f : Firing}
    (h : LawfulChannel l ch) (hf : ch.firing = some f) :
    ∃ b, ch.active = some b ∧ InProgress b f l ch := by
  obtain ⟨⟨hroom, hrest, ⟨hready, hrun, hact, hcont⟩, hpend, hout, hfiring⟩, hl⟩ := h
  have hstate : ch.state = .running ∨ ch.state = .draining := by
    cases hs : ch.state with
    | off => simp [(hrest (.inl hs)).1] at hf
    | forced => simp [(hrest (.inr hs)).1] at hf
    | ready => simp [(hready hs).1] at hf
    | running => exact .inl rfl
    | draining => exact .inr rfl
  have hi : ch.inService = true := by simpa [Channel.inService] using hstate
  obtain ⟨b, ha⟩ := Option.isSome_iff_exists.mp (hact hi)
  obtain ⟨htimed, hcarries⟩ := hfiring f hf
  refine ⟨b, ha, hstate, ha, hf, hroom, fun hm => (hcont (by simp [ha, hm])).1, fun p hp => ?_,
    htimed, by simpa [ha] using hcarries, hl⟩
  obtain ⟨_, hbase, hmode⟩ := hpend p hp
  simp only [ha, Option.map_some, Option.some.injEq] at hbase hmode
  exact ⟨hbase.symm, hmode.symm⟩

theorem Resting.lawful {b : Binding} {l : LineUnit} {ch : Channel} (h : Resting b l ch)
    (hp : ch.pending = none) (hstate : ch.state = .ready ∨ ch.state = .draining)
    (hout : ch.output = ch.idleLevel) : LawfulChannel l ch := by
  obtain ⟨ha, hm, hf, hroom, _, hl⟩ := h
  refine ⟨⟨hroom, fun h => ?_, ?_, ?_, ?_, ?_⟩, hl⟩
  · rcases hstate with hs | hs <;> simp [hs] at h
  · rcases hstate with hs | hs <;> simp [ServiceLaw, Channel.inService, hs, hf, ha, hm]
  · simp [PendingLaw, hp]
  · rcases hstate with hs | hs <;> simp [OutputLaw, hs, hout]
  · simp [FiringLaw, hf]

/-- A lawful channel that is READY, or DRAINING with nothing in progress, rests under a TRIGGERED
binding and has none pending (R21). -/
theorem LawfulChannel.resting {l : LineUnit} {ch : Channel} (h : LawfulChannel l ch)
    (hstate : ch.state = .ready ∨ ch.state = .draining) (hf : ch.firing = none) :
    ∃ b, ch.active = some b ∧ ch.pending = none ∧ ch.output = ch.idleLevel ∧
      Resting b l ch := by
  obtain ⟨⟨hroom, _, ⟨hready, _, hact, hcont⟩, hpend, ⟨_, hout⟩, _⟩, hl⟩ := h
  have hnone : ch.pending = none := by
    rw [Option.eq_none_iff_forall_not_mem]
    intro p hp
    simpa [hf] using (hpend p hp).1
  obtain ⟨b, ha, hm⟩ : ∃ b, ch.active = some b ∧ b.mode = .triggered := by
    rcases hstate with hs | hs
    · simpa using (hready hs).2
    · have hi : ch.inService = true := by simp [Channel.inService, hs]
      obtain ⟨b, ha⟩ := Option.isSome_iff_exists.mp (hact hi)
      refine ⟨b, ha, ?_⟩
      cases hm : b.mode with
      | triggered => rfl
      | continuous => simpa [hf] using (hcont (by simp [ha, hm])).2 hi
  refine ⟨b, ha, hnone, hout (by rcases hstate with hs | hs <;> simp [hs]) hf, ha, hm, hf, hroom,
    by simp [hnone], hl⟩

theorem LawfulChannel.room {l : LineUnit} {ch : Channel} (h : LawfulChannel l ch) :
    ch.queue.length ≤ 16 := h.1.1

theorem LawfulChannel.presets {l : LineUnit} {ch : Channel} (h : LawfulChannel l ch) :
    PresetsAgree l ch := h.2

/-- Entries may leave a lawful channel's queue, and its missed counter move. -/
theorem LawfulChannel.shrink {l : LineUnit} {ch : Channel} {queue : List Entry} {n : Half}
    (h : LawfulChannel l ch) (hq : queue.Sublist ch.queue) :
    LawfulChannel l { ch with queue := queue, missed := n } := by
  obtain ⟨⟨hroom, hrest, ⟨hready, hrun, hact, hcont⟩, hlaws⟩, hl⟩ := h
  have hempty : ch.queue = [] → queue = [] := fun he => List.sublist_nil.mp (he ▸ hq)
  refine ⟨⟨hq.length_le.trans hroom, fun hs => ?_, ⟨hready, hrun, hact, fun hm => ?_⟩, hlaws⟩, hl⟩
  · obtain ⟨hf, he, hp⟩ := hrest hs
    exact ⟨hf, hempty he, hp⟩
  · obtain ⟨he, hf⟩ := hcont hm
    exact ⟨hempty he, hf⟩

theorem Resting.shrink {b : Binding} {l : LineUnit} {ch : Channel} {queue : List Entry} {n : Half}
    (h : Resting b l ch) (hq : queue.Sublist ch.queue) :
    Resting b l { ch with queue := queue, missed := n } :=
  { h with room := hq.length_le.trans h.room }

/-- A binding of the same base leaves the agreement on the presets. -/
theorem PresetsAgree.rebind {b : Binding} {l : LineUnit} {ch ch' : Channel}
    (h : PresetsAgree l ch) {b' : Binding} (ha : ch.active = some b) (ha' : ch'.active = some b')
    (hb : b'.base = b.base) (ht : ch'.presetsTaken = ch.presetsTaken)
    (hc : ch'.coords = ch.coords) (hp : ch'.presets = ch.presets) : PresetsAgree l ch' := by
  unfold PresetsAgree Channel.lineBound at h ⊢
  simp only [ha, ha', hb, ht, hc, hp] at h ⊢
  exact h

/-- The pending binding may become active where a firing or pass is in progress (R78, R80). -/
theorem InProgress.rebind {b b' : Binding} {f : Firing} {l : LineUnit} {ch : Channel}
    (h : InProgress b f l ch) (hb : b'.base = b.base ∧ b'.mode = b.mode) :
    InProgress b' f l { ch with active := some b', pending := none } where
  service := h.service
  active := rfl
  firing := h.firing
  room := h.room
  queue := hb.2 ▸ h.queue
  pending := by simp
  timed := h.timed
  carries := hb.2 ▸ h.carries
  presets := h.presets.rebind h.active rfl hb.1 rfl rfl rfl

theorem Resting.rebind {b b' : Binding} {l : LineUnit} {ch : Channel}
    (h : Resting b l ch) (hb : b'.base = b.base ∧ b'.mode = b.mode) :
    Resting b' l { ch with active := some b', pending := none } where
  active := rfl
  mode := hb.2.trans h.mode
  firing := h.firing
  room := h.room
  pending := by simp
  presets := h.presets.rebind h.active rfl hb.1 rfl rfl rfl

/-! ## Within one event of a channel -/

/-- In the midst of an event of channel `c`: its record meets `P`, and every other one is lawful. -/
structure AtWork (c : Fin 8) (P : LineUnit → Channel → Prop) (s : State) : Prop where
  here : P s.line (s.chan c)
  others : ∀ d, d ≠ c → LawfulChannel s.line (s.chan d)

section
variable {c : Fin 8} {P Q : LineUnit → Channel → Prop} {s t : State}

theorem ChannelsLaw.atWork (hs : ChannelsLaw s) (h : P s.line (s.chan c)) : AtWork c P s :=
  ⟨h, fun d _ => hs d⟩

theorem AtWork.channelsLaw (h : AtWork c LawfulChannel s) : ChannelsLaw s := fun d => by
  by_cases hd : d = c
  · exact hd ▸ h.here
  · exact h.others d hd

theorem AtWork.mono (h : AtWork c P s) (hpq : P s.line (s.chan c) → Q s.line (s.chan c)) :
    AtWork c Q s := ⟨hpq h.here, h.others⟩

theorem AtWork.congr (h : AtWork c P s) (hline : t.line = s.line)
    (hchan : t.channels = s.channels) : AtWork c P t := by
  have hc : ∀ d, t.chan d = s.chan d := fun d => by simp [State.chan, hchan]
  exact ⟨by rw [hline, hc]; exact h.here, fun d hd => by rw [hline, hc]; exact h.others d hd⟩

theorem AtWork.setChan (h : AtWork c P s) {ch : Channel} (hq : Q s.line ch) :
    AtWork c Q (s.setChan c ch) where
  here := by rw [setChan_chan_same]; exact hq
  others d hd := by rw [setChan_chan_ne _ _ hd]; exact h.others d hd

theorem AtWork.modChan (h : AtWork c P s) {f : Channel → Channel}
    (hq : P s.line (s.chan c) → Q s.line (f (s.chan c))) : AtWork c Q (s.modChan c f) :=
  h.setChan (hq h.here)

theorem AtWork.submit (h : AtWork c P s) (b : ReportBody) : AtWork c P (submit s b) :=
  h.congr rfl rfl

theorem AtWork.withSession (h : AtWork c P s) (se : Session) : AtWork c P (s.withSession se) :=
  h.congr rfl rfl

theorem AtWork.releaseUse (h : AtWork c P s) (b : Option Binding) :
    AtWork c P (releaseUse s b) := h.congr (by simp) (by simp)

/-- One channel takes another lawful record. -/
theorem ChannelsLaw.setChan (hs : ChannelsLaw s) {ch : Channel} (h : LawfulChannel s.line ch) :
    ChannelsLaw (s.setChan c ch) :=
  ((hs.atWork (P := LawfulChannel) (hs c)).setChan h).channelsLaw

theorem ChannelsLaw.modChan (hs : ChannelsLaw s) {f : Channel → Channel}
    (h : LawfulChannel s.line (s.chan c) → LawfulChannel s.line (f (s.chan c))) :
    ChannelsLaw (s.modChan c f) := hs.setChan (h (hs c))

/-! ### Losses -/

/-- Entries discarded at the head: the queue gets shorter and the missed counter moves. -/
theorem AtWork.dropHeads (h : AtWork c P s) (cause : MissedCause) (p : Entry → Bool)
    (hq : ∀ queue n, queue.Sublist (s.chan c).queue → P s.line (s.chan c) →
      Q s.line { s.chan c with queue := queue, missed := n }) :
    AtWork c Q (dropHeads s c cause p) := by
  have hhead : ∀ x ∈ ((s.chan c).queue.dropWhile p).head?, p x = false := fun x hx => by
    have h := List.head?_dropWhile_not p (s.chan c).queue
    rw [Option.mem_def.mp hx] at h
    exact h
  rw [dropHeads_of_split List.takeWhile_append_dropWhile.symm
    (fun x hx => List.mem_takeWhile_imp hx) hhead]
  exact (h.setChan (hq _ _ (List.dropWhile_sublist p) h.here)).withSession _

theorem ChannelsLaw.dropHeads (hs : ChannelsLaw s) (cause : MissedCause) (p : Entry → Bool) :
    ChannelsLaw (dropHeads s c cause p) :=
  ((hs.atWork (P := LawfulChannel) (hs c)).dropHeads cause p
    fun _ _ hq h => h.shrink hq).channelsLaw

/-! ### Starts -/

/-- A step begins: the firing goes on in it, and its level is driven (R22, R32, R36). -/
theorem AtWork.beginStep {b : Binding} {f : Firing} {i : Nat} {p : Word} (h : AtWork c P s)
    (hq : ∀ g out, g.entry = f.entry → g.lateness = f.lateness → P s.line (s.chan c) →
      Q s.line { s.chan c with firing := some g, output := out }) :
    AtWork c Q (beginStep s c b f i p) := by
  unfold Machine.beginStep
  exact h.modChan fun hp => hq _ _ rfl rfl hp

/-- The step that follows leaves the firing or pass in progress. -/
theorem ChannelsLaw.beginStep {b b' : Binding} {f g : Firing} {i : Nat} {p : Word}
    (h : AtWork c (InProgress b g) s) (he : f.entry = g.entry) (hl : f.lateness = g.lateness) :
    ChannelsLaw (beginStep s c b' f i p) :=
  (h.beginStep (Q := LawfulChannel) fun g' _ he' hl' hg => InProgress.lawful (b := b) (f := g')
    { hg with
      firing := rfl
      timed := by rw [he', hl', he, hl]; exact hg.timed
      carries := by rw [he', he]; exact hg.carries
      presets := hg.presets }).channelsLaw

/-- A firing starts where a TRIGGERED channel rests (R30). -/
theorem ChannelsLaw.startFiring {b : Binding} {x : Entry} {p : Word}
    (h : AtWork c (fun l ch => Resting b l ch ∧ ch.pending = none) s) :
    ChannelsLaw (startFiring s c b x p) := by
  have hstate : ∀ st : ChanState,
      (if st = .draining then .draining else .running) = ChanState.running ∨
        (if st = .draining then .draining else .running) = ChanState.draining := by
    intro st; split <;> simp
  refine AtWork.channelsLaw (c := c) ?_
  refine (h.modChan (Q := fun l ch => Resting b l ch ∧ ch.pending = none ∧
    (ch.state = .running ∨ ch.state = .draining)) fun ⟨hr, hp⟩ =>
      ⟨{ hr with }, hp, hstate _⟩).beginStep fun g out he hl ⟨hr, hp, hs⟩ => ?_
  exact InProgress.lawful (b := b) (f := g)
    { service := hs, active := hr.active, firing := rfl, room := hr.room
      queue := fun hm => by simp [hr.mode] at hm
      pending := hr.pending
      timed := by rw [he, hl]; rfl
      carries := by rw [he]; simp [hr.mode, newFiring]
      presets := hr.presets }

/-- A pass starts where a CONTINUOUS channel is RUNNING or DRAINING (R31). -/
theorem ChannelsLaw.startPass {b : Binding} {p : Word} (hm : b.mode = .continuous)
    (h : AtWork c (fun l ch => (ch.state = .running ∨ ch.state = .draining) ∧
      ch.active = some b ∧ ch.queue = [] ∧ ch.pending = none ∧ PresetsAgree l ch) s) :
    ChannelsLaw (startPass s c b p) := by
  refine AtWork.channelsLaw (c := c) (h.beginStep fun g out he hl ⟨hs, ha, hq, hp, hpre⟩ => ?_)
  exact InProgress.lawful (b := b) (f := g)
    { service := hs, active := ha, firing := rfl
      room := by simp [hq]
      queue := fun _ => hq
      pending := by simp [hp]
      timed := by rw [he, hl]; rfl
      carries := by rw [he]; simp [hm, newFiring]
      presets := hpre }

/-! ### Ends -/

/-- A firing or pass in progress ends: nothing is in progress, at the idle level. -/
theorem AtWork.clearFiring (h : AtWork c P s)
    (hq : P s.line (s.chan c) →
      Q s.line { s.chan c with firing := none, output := (s.chan c).idleLevel }) :
    AtWork c Q (clearFiring s c) := h.modChan hq

/-- The end of a TRIGGERED firing leaves the channel resting, in the state it was in. -/
theorem AtWork.endFiring {b : Binding} {f g : Firing} {e : Word} {o : FiringOutcome}
    {S : ChanState → Prop} (h : AtWork c (fun l ch => InProgress b g l ch ∧ S ch.state) s)
    (hm : b.mode = .triggered) :
    AtWork c (fun l ch => Resting b l ch ∧ S ch.state) (endFiring s c f e o) := by
  have hclear : AtWork c (fun l ch => Resting b l ch ∧ S ch.state) (Machine.clearFiring s c) :=
    h.clearFiring fun ⟨hg, hs⟩ =>
      ⟨{ active := hg.active, mode := hm, firing := rfl, room := hg.room, pending := hg.pending
         presets := hg.presets }, hs⟩
  unfold Machine.endFiring
  split
  · exact hclear
  · refine (hclear.modChan fun ⟨hr, hs⟩ => ?_).submit _
    cases o <;> exact ⟨{ hr with }, hs⟩

/-- A pending binding, if there is one, becomes active (R78). -/
theorem AtWork.applyPending (h : AtWork c P s)
    (hsome : ∀ p ∈ (s.chan c).pending, P s.line (s.chan c) →
      Q s.line { s.chan c with active := some p, pending := none })
    (hnone : (s.chan c).pending = none → P s.line (s.chan c) → Q s.line (s.chan c)) :
    AtWork c Q (applyPending s c) := by
  unfold Machine.applyPending
  split
  · next hp => exact h.mono (hnone hp)
  · next b hp =>
    refine ((h.releaseUse _).modChan fun hr => ?_).submit _
    simp only [releaseUse_line, releaseUse_chan] at hr ⊢
    exact hsome b hp hr

/-- After the first step of the examination the channel rests under the binding then active, with
none pending (R62, R78). -/
theorem AtWork.applyPending_resting {b : Binding} {S : ChanState → Prop}
    (h : AtWork c (fun l ch => Resting b l ch ∧ S ch.state) s) :
    ∃ b', AtWork c (fun l ch => Resting b' l ch ∧ ch.pending = none ∧ S ch.state)
      (Machine.applyPending s c) := by
  refine ⟨(s.chan c).pending.getD b, h.applyPending (fun p hp ⟨hr, hs⟩ => ?_)
    fun hp ⟨hr, hs⟩ => ?_⟩
  · rw [Option.mem_def.mp hp]
    exact ⟨hr.rebind (hr.pending p hp), rfl, hs⟩
  · have hb : (s.chan c).pending.getD b = b := by rw [hp]; rfl
    rw [hb]
    exact ⟨hr, hp, hs⟩

/-- A channel without work goes to OFF by itself (R35, R41, R44, R62). -/
theorem ChannelsLaw.leaveService {cause : OffCause} (h : AtWork c Workless s) :
    ChannelsLaw (leaveService s c cause) :=
  AtWork.channelsLaw ((h.modChan fun hw =>
    Workless.lawful_of_off { hw with presets := hw.presets } rfl rfl).submit _)

/-! ### The examination -/

/-- Where a firing has ended and none starts, the channel leaves service, rests or stays DRAINING
(R62 steps 4 and 5). -/
theorem ChannelsLaw.restAfterFiring {b : Binding}
    (h : AtWork c (fun l ch => Resting b l ch ∧ ch.pending = none ∧
      (ch.state = .running ∨ ch.state = .draining)) s) : ChannelsLaw (restAfterFiring s c) := by
  unfold Machine.restAfterFiring
  split
  · next hd =>
    exact ChannelsLaw.leaveService (h.mono fun ⟨hr, hp, _⟩ => ⟨hr.firing, hd.2, hp, hr.presets⟩)
  · refine AtWork.channelsLaw (h.modChan fun ⟨hr, hp, hs⟩ => ?_)
    refine Resting.lawful (b := b) { hr with presets := hr.presets } hp ?_ rfl
    rcases hs with hs | hs <;> simp [hs]

theorem ChannelsLaw.examineQueue {b : Binding} {e : Word}
    (h : AtWork c (fun l ch => Resting b l ch ∧ ch.pending = none ∧
      (ch.state = .running ∨ ch.state = .draining)) s) : ChannelsLaw (examineQueue s c b e) := by
  have hdrop := h.dropHeads (Q := fun l ch => Resting b l ch ∧ ch.pending = none ∧
    (ch.state = .running ∨ ch.state = .draining)) .late (tooLate b e)
    fun _ _ hq ⟨hr, hp, hs⟩ => ⟨hr.shrink hq, hp, hs⟩
  unfold Machine.examineQueue
  dsimp only
  split
  · exact .restAfterFiring hdrop
  · next x rest hqueue =>
    split
    · refine .startFiring (hdrop.modChan fun ⟨hr, hp, _⟩ => ⟨?_, hp⟩)
      exact hr.shrink (hqueue ▸ List.sublist_cons_self x rest)
    · exact .restAfterFiring hdrop

/-- The examination of a firing that has ended keeps the laws (R62). -/
theorem ChannelsLaw.examineEnd {b : Binding} {e : Word}
    (h : AtWork c (fun l ch => Resting b l ch ∧ (ch.state = .running ∨ ch.state = .draining)) s) :
    ChannelsLaw (examineEnd s c e) := by
  obtain ⟨b', h'⟩ := h.applyPending_resting (S := fun st => st = .running ∨ st = .draining)
  obtain ⟨hr, _⟩ := h'.here
  unfold Machine.examineEnd
  simp only [hr.active]
  exact .examineQueue h'

/-- A TRIGGERED firing that ends and is examined (R34, R40, R62). -/
theorem ChannelsLaw.examineEnd_endFiring {b : Binding} {f g : Firing} {p e : Word}
    {o : FiringOutcome} (hs : ChannelsLaw s) (h : InProgress b g s.line (s.chan c))
    (hm : b.mode = .triggered) :
    ChannelsLaw (Machine.examineEnd (Machine.endFiring s c f p o) c e) :=
  .examineEnd ((hs.atWork (P := fun l ch => InProgress b g l ch ∧
    (ch.state = .running ∨ ch.state = .draining)) ⟨h, h.service⟩).endFiring
    (S := fun st => st = .running ∨ st = .draining) hm)

/-! ### The end of a step -/

/-- A wrap point of a pass keeps the laws, also where an offered binding is applied at it (R35). -/
theorem ChannelsLaw.wrapPoint {b : Binding} {f g : Firing} {target : Option Nat} {e : Word}
    (hs : ChannelsLaw s) (h : InProgress b g s.line (s.chan c)) (hm : b.mode = .continuous)
    (he : f.entry = g.entry) (hl : f.lateness = g.lateness) :
    ChannelsLaw (wrapPoint s c b f target e) := by
  have hq := h.queue hm
  have happlied : ∀ b', (s.chan c).pending.getD b = b' →
      AtWork c (fun l ch => (ch.state = .running ∨ ch.state = .draining) ∧
        ch.active = some b' ∧ ch.queue = [] ∧ ch.pending = none ∧ PresetsAgree l ch)
        (Machine.applyPending s c) := by
    rintro b' rfl
    refine (hs.atWork (P := InProgress b g) h).applyPending (fun p hp hg => ?_) fun hp hg => ?_
    · rw [Option.mem_def.mp hp]
      exact ⟨hg.service, rfl, hq, rfl, (hg.rebind (hg.pending p hp)).presets⟩
    · exact ⟨hg.service, by rw [hp]; exact hg.active, hq, hp, hg.presets⟩
  unfold Machine.wrapPoint
  dsimp only
  split
  · refine .leaveService ((happlied _ rfl).clearFiring fun ⟨_, _, hq, hp, hpre⟩ => ?_)
    exact { firing := rfl, queue := hq, pending := hp, presets := hpre }
  · split
    · next b1 hp =>
      have hb1 : b1.mode = .continuous := (h.pending b1 hp).2.trans hm
      exact .startPass hb1 (happlied b1 (by rw [hp]; rfl))
    · exact .beginStep (hs.atWork h) he hl
    · next hp =>
      exact .startPass hm (hs.atWork ⟨h.service, h.active, hq, hp, h.presets⟩)

theorem ChannelsLaw.jumpToLoop {b : Binding} {f g : Firing} {e : Word} (hs : ChannelsLaw s)
    (h : InProgress b g s.line (s.chan c)) (he : f.entry = g.entry)
    (hl : f.lateness = g.lateness) : ChannelsLaw (jumpToLoop s c b f e) := by
  unfold Machine.jumpToLoop
  dsimp only
  split
  · exact .beginStep (hs.atWork h) he hl
  · next hm => exact hs.wrapPoint h hm he hl

/-- Whatever follows the end of a running step keeps the laws (R32 to R35). -/
theorem ChannelsLaw.endStep {b : Binding} {f : Firing} {e : Word} (hs : ChannelsLaw s)
    (ha : (s.chan c).active = some b) (hf : (s.chan c).firing = some f) :
    ChannelsLaw (endStep s c b f e) := by
  obtain ⟨b', ha', h⟩ := (hs c).inProgress hf
  obtain rfl : b' = b := Option.some.inj (ha'.symm.trans ha)
  unfold Machine.endStep
  dsimp only
  split
  · exact .beginStep (hs.atWork h) rfl rfl
  split
  · exact hs.jumpToLoop h rfl rfl
  split
  · exact hs.jumpToLoop h rfl rfl
  split
  · next hm => exact hs.examineEnd_endFiring h hm
  · next hm => exact hs.wrapPoint h hm rfl rfl

theorem ChannelsLaw.takeOffer (hs : ChannelsLaw s) (o : Offer) : ChannelsLaw (takeOffer s c o) := by
  unfold Machine.takeOffer edgeEndsStep
  split
  · next b f a heq =>
    split at heq
    · next ha hf =>
      dsimp only at heq
      split at heq
      · cases heq
        exact hs.endStep ha hf
      · cases heq
    · cases heq
  · exact hs

/-! ### Due entries -/

theorem ChannelsLaw.dueWhileRunning {b : Binding} (hs : ChannelsLaw s) :
    ChannelsLaw (dueWhileRunning s c b) := by
  unfold Machine.dueWhileRunning
  split
  · exact hs
  · exact hs.dropHeads .busy _

/-- The handling of a due head entry keeps the laws (R59, R60). -/
theorem ChannelsLaw.handleDue (hs : ChannelsLaw s) : ChannelsLaw (handleDue s c) := by
  unfold Machine.handleDue
  dsimp only
  split
  · next b x rest ha hq =>
    split
    · split
      · split
        · exact hs.dueWhileRunning
        · exact hs
      · next hf =>
        split
        · next hstate =>
          obtain ⟨b', ha', hp, _, hr⟩ := (hs c).resting hstate hf
          obtain rfl : b' = b := Option.some.inj (ha'.symm.trans ha)
          refine .dueWhileRunning (.startFiring ((hs.atWork (P := Resting b') hr).modChan
            fun hr => ⟨?_, hp⟩))
          exact hr.shrink (hq ▸ List.sublist_cons_self x rest)
        · exact hs
    · exact hs
  · exact hs

theorem insertEntry_length (now : Word) (e : Entry) (queue : List Entry) :
    (insertEntry now e queue).length = queue.length + 1 := by
  induction queue with
  | nil => rfl
  | cons x rest ih =>
    unfold insertEntry
    split
    · simp [ih]
    · rfl

/-- A channel that takes triggers and has room may take one more entry (R51, R54, R56). -/
theorem LawfulChannel.addEntry {l : LineUnit} {ch : Channel} {b : Binding} {queue : List Entry}
    {n m : Half} (h : LawfulChannel l ch) (ha : ch.active = some b)
    (hs : ch.state = .ready ∨ (ch.state = .running ∧ b.mode = .triggered))
    (hq : queue.length ≤ 16) :
    LawfulChannel l { ch with queue := queue, nextNumber := n, accepted := m } := by
  obtain ⟨⟨_, _, ⟨hready, hrun, hact, _⟩, hlaws⟩, hl⟩ := h
  have hm : b.mode = .triggered := by
    rcases hs with hs | ⟨_, hm⟩
    · simpa [ha] using (hready hs).2
    · exact hm
  refine ⟨⟨hq, fun h => ?_, ⟨hready, hrun, hact, fun h => ?_⟩, hlaws⟩, hl⟩
  · rcases hs with hs | ⟨hs, _⟩ <;> simp [hs] at h
  · simp [ha, hm] at h

/-- The creation of an entry keeps the laws where the channel takes triggers and its queue has
room (R51). -/
theorem ChannelsLaw.createEntry {b : Binding} {source : Source} {trigger due : Word}
    (hs : ChannelsLaw s) (ha : (s.chan c).active = some b)
    (hstate : (s.chan c).state = .ready ∨ ((s.chan c).state = .running ∧ b.mode = .triggered))
    (hroom : (s.chan c).queue.length < 16) : ChannelsLaw (createEntry s c source trigger due) := by
  unfold Machine.createEntry
  dsimp only
  have hlen : ∀ e, (insertEntry (chanNow s c) e (s.chan c).queue).length ≤ 16 := fun e => by
    rw [insertEntry_length]; exact hroom
  have hadd : ∀ e, ChannelsLaw (s.modChan c fun ch =>
      { ch with queue := insertEntry (chanNow s c) e ch.queue
                nextNumber := ch.nextNumber + 1, accepted := ch.accepted + 1 }) :=
    fun e => hs.modChan fun h => h.addEntry ha hstate (hlen e)
  split
  · exact (hadd _).handleDue
  · exact hadd _

end

/-! ## The view an operation leaves as it was -/

theorem channelView_setChan (s : State) (c : Fin 8) (ch : Channel)
    (h : ch.lawPart = (s.chan c).lawPart) : channelView (s.setChan c ch) = channelView s := by
  refine channelView_eq_iff.mpr ⟨rfl, rfl, fun d => ?_⟩
  rw [setChan_chan]
  split
  · next hd => subst hd; exact h
  · rfl

theorem channelView_modChan (s : State) (c : Fin 8) (f : Channel → Channel)
    (h : (f (s.chan c)).lawPart = (s.chan c).lawPart) :
    channelView (s.modChan c f) = channelView s := channelView_setChan s c _ h

theorem channelView_foldl {α : Type} (f : State → α → State) (l : List α)
    (h : ∀ s a, channelView (f s a) = channelView s) (s : State) :
    channelView (l.foldl f s) = channelView s := by
  induction l generalizing s with
  | nil => rfl
  | cons a l ih => rw [List.foldl_cons, ih, h]

theorem channelView_releaseUse (s : State) (b : Option Binding) :
    channelView (releaseUse s b) = channelView s :=
  channelView_of_channels (by simp) (by simp)

theorem channelView_submitMissed (s : State) (r : MissedReport) :
    channelView (submitMissed s r) = channelView s :=
  channelView_modChan s r.channel (fun ch => { ch with missed := ch.missed + r.count }) rfl

theorem channelView_arbitrateCarry (s : State) (carry : Int) :
    channelView (arbitrateCarry s carry) = channelView s := by rw [arbitrateCarry_eq]; rfl

theorem channelView_arbitrate (s : State) : channelView (arbitrate s) = channelView s :=
  channelView_arbitrateCarry s 0

theorem channelView_concludeRequest (r : Request) (f : Frame) (s : State) :
    channelView (concludeRequest r f s) = channelView s := by rw [concludeRequest_eq]; rfl

theorem channelView_receive (b : Byte) (s : State) : channelView (receive b s) = channelView s := by
  have hsilence : ∀ u, channelView (restartSilence u) = channelView u := fun u => by
    unfold restartSilence; split <;> rfl
  have henqueue : ∀ u r, channelView (enqueueRequest u r) = channelView u := fun u r => by
    unfold enqueueRequest; split <;> rfl
  have hrepeat : ∀ u e, channelView (repeatReply u e) = channelView u := fun u e => by
    unfold repeatReply
    split
    · rfl
    · split <;> rfl
  have haccept : ∀ u r, channelView (acceptFrame u r) = channelView u := fun u r => by
    unfold acceptFrame
    dsimp only
    split
    · split
      · rw [hrepeat, hsilence]
      · split
        · exact hsilence u
        · rw [henqueue, hsilence]
    · rw [henqueue, hsilence]
  unfold receive
  split
  · split <;> rfl
  · split <;> rfl
  · rfl
  · rfl
  · rw [channelView_arbitrate]
    unfold judgeFrame
    split
    · rfl
    · split
      · rw [haccept]; rfl
      · rfl

theorem channelView_closeSession (s : State) (cause : CloseCause) :
    channelView (closeSession s cause) = channelView s := by
  obtain ⟨_, heq⟩ := closeSession_spec s _ cause rfl
  exact channelView_of_channels (by rw [heq]) (by rw [heq])

theorem channelView_riseLine (s : State) : channelView (riseLine s) = channelView s := by
  unfold riseLine
  dsimp only
  split <;> rfl

theorem channelView_stallLine (s : State) : channelView (stallLine s) = channelView s := by
  refine channelView_eq_iff.mpr ⟨rfl, rfl, fun c => ?_⟩
  have hchan : (stallLine s).chan c =
      if (s.chan c).lineBound then { s.chan c with stallNotices := (s.chan c).stallNotices + 1 }
      else s.chan c := Vector.getElem_map ..
  rw [hchan]
  split <;> rfl

theorem channelView_applyLineSettings (s : State) :
    channelView (applyLineSettings s) = channelView s := by
  have hfilter : ∀ u, channelView (applyLineFilter u) = channelView u := fun u => by
    unfold applyLineFilter
    split
    · exact channelView_riseLine u
    · rfl
    · rfl
  have hlimit : ∀ u, channelView (applyStallLimit u) = channelView u := fun u => by
    unfold applyStallLimit
    split
    · rfl
    · split
      · exact channelView_stallLine u
      · rfl
  unfold applyLineSettings
  dsimp only
  split
  · split
    · rw [hlimit, hfilter]; rfl
    · rw [hfilter, hlimit]; rfl
  · rw [hlimit, hfilter]

theorem channelView_acceptEdge (s : State) (i : Fin 4) (level : Level) :
    channelView (acceptEdge s i level) = channelView s := by
  have hroute : ∀ e u id, channelView (deliverRoute i e u id) = channelView u := fun e u id => by
    refine channelView_eq_iff.mpr ⟨by rw [deliverRoute_eq], by rw [deliverRoute_eq], fun c => ?_⟩
    rw [deliverRoute_chan]; rfl
  have hoffer : ∀ e u c, channelView (offerEdge i e u c) = channelView u := fun e u c => by
    refine channelView_eq_iff.mpr ⟨by rw [offerEdge_eq], by rw [offerEdge_eq], fun d => ?_⟩
    rw [offerEdge_chan]; rfl
  unfold acceptEdge
  dsimp only
  rw [channelView_foldl _ _ (hoffer _), channelView_foldl _ _ (hroute _)]
  split
  · rw [logEvent_eq]; rfl
  · rfl

theorem channelView_tick (pins : Pins) (s : State) : channelView (tick pins s) = channelView s := by
  unfold tick
  dsimp only
  split <;> rfl

/-! ## Triggers, notices and presets -/

section
variable {c : Fin 8} {s : State}

theorem ChannelsLaw.takeTrigger (hs : ChannelsLaw s) (t : Trigger) :
    ChannelsLaw (takeTrigger s c t) := by
  have hrefuse : ∀ cause, ChannelsLaw (refuseTrigger s c t cause) := fun cause => by
    unfold refuseTrigger
    dsimp only
    split
    · exact hs.of_view (channelView_submitMissed _ _)
    · exact hs.of_view (channelView_submitMissed _ _)
  have haccept : ∀ b, (s.chan c).active = some b → b.mode = .triggered →
      ((s.chan c).state = .ready ∨ (s.chan c).state = .running) →
      ChannelsLaw (acceptTrigger s c b t) := fun b ha hm hstate => by
    unfold acceptTrigger
    split
    · exact hrefuse _
    · next hroom =>
      exact hs.createEntry ha (hstate.imp_right fun h => ⟨h, hm⟩) (Nat.lt_of_not_le hroom)
  unfold Machine.takeTrigger
  dsimp only
  split
  · exact hs
  · exact hrefuse _
  · exact hrefuse _
  all_goals
    next hstate =>
    split
    · exact hs
    · next b ha =>
      split
      · next hm => exact haccept b ha hm (by simp [hstate])
      · exact hrefuse _

/-- A stall notice that is acted on keeps the laws (R40, R41). -/
theorem ChannelsLaw.actOnStall (hs : ChannelsLaw s) : ChannelsLaw (actOnStall s c) := by
  unfold Machine.actOnStall
  dsimp only
  split
  · next b f ha hf =>
    obtain ⟨b', ha', h⟩ := (hs c).inProgress hf
    obtain rfl : b' = b := Option.some.inj (ha'.symm.trans ha)
    split
    · split
      · next hm => exact hs.examineEnd_endFiring h hm
      · next hm =>
        refine .leaveService ((((hs.atWork (P := InProgress b' f) h).clearFiring
          (Q := fun l ch => ch.firing = none ∧ ch.queue = [] ∧ PresetsAgree l ch)
          fun hg => ⟨rfl, hg.queue hm, hg.presets⟩).releaseUse _).modChan
          fun ⟨hf, hq, hp⟩ => ?_)
        exact { firing := hf, queue := hq, pending := rfl, presets := hp }
    · exact hs
  · exact hs

theorem takePreset_of_bound {k : Word} {ch : Channel} (h : ch.lineBound = true) :
    takePreset k ch =
      { ch with presetsTaken := ch.presetsTaken + 1, coords := ch.coords + k
                queue := ch.queue.map (Entry.shift k)
                firing := ch.firing.map (Firing.shift k) } := if_pos h

theorem takePreset_of_free {k : Word} {ch : Channel} (h : ch.lineBound = false) :
    takePreset k ch =
      { ch with presetsTaken := ch.presetsTaken + 1, coords := ch.coords + k } :=
  if_neg (by simp [h])

/-- A channel that takes the oldest preset handed to it keeps its law, and the presets taken and
those still handed make as many as before (R68, R69, R98). -/
theorem LawfulChannel.takePreset {l : LineUnit} {ch : Channel} {k : Word} {rest : List Word}
    (h : LawfulChannel l ch) (hp : ch.presets = k :: rest) :
    LawfulChannel l (takePreset k { ch with presets := rest }) := by
  obtain ⟨⟨hroom, hrest, ⟨hready, hrun, hact, hcont⟩, hpend, ⟨hforced, hout⟩, hfiring⟩, hl⟩ := h
  cases hb : ch.lineBound with
  | false =>
    rw [takePreset_of_free (ch := { ch with presets := rest }) hb]
    refine ⟨⟨hroom, hrest, ⟨hready, hrun, hact, hcont⟩, hpend, ⟨hforced, hout⟩, hfiring⟩,
      fun h => ?_⟩
    exact absurd (hb.symm.trans h) (by decide)
  | true =>
    rw [takePreset_of_bound (ch := { ch with presets := rest }) hb]
    obtain ⟨hmade, hsum⟩ := hl hb
    refine ⟨⟨by simpa using hroom, fun hs => ?_, ⟨fun hs => ?_, fun hs => ?_, hact, fun hm => ?_⟩,
      fun p hp => ?_, ⟨hforced, fun hs hf => hout hs (by simpa using hf)⟩, fun f hf => ?_⟩,
      fun _ => ⟨?_, ?_⟩⟩
    · obtain ⟨hf, hq, hp⟩ := hrest hs
      simp [hf, hq, hp]
    · obtain ⟨hf, hm⟩ := hready hs
      simp [hf, hm]
    · simpa using hrun hs
    · obtain ⟨hq, hf⟩ := hcont hm
      exact ⟨by simp [hq], fun hi => by simpa using hf hi⟩
    · simpa using hpend p hp
    · obtain ⟨g, hg, rfl⟩ := Option.map_eq_some_iff.mp hf
      simpa [Firing.shift] using hfiring g hg
    · rw [← hmade, hp, List.length_cons, Nat.add_comm, BitVec.ofNat_add, ← BitVec.add_assoc]
      rfl
    · rw [← hsum, hp, List.sum_cons, ← BitVec.add_assoc]

/-! ## Work ended: HALT and the cutoff -/

/-- A channel whose work HALT or the cutoff has ended holds none (R27, R132). -/
theorem workless_stopped {l : LineUnit} {ch : Channel} (h : PresetsAgree l ch) (state : ChanState)
    (out : Level) : Workless l (ch.stopped state out) := ⟨rfl, rfl, rfl, h⟩

theorem ChannelsLaw.endWork {o : FiringOutcome} {cause : MissedCause} {state : ChanState}
    {level : Channel → Level} (hs : ChannelsLaw s)
    (h : Workless s.line ((s.chan c).stopped state (level (s.chan c))) →
      LawfulChannel s.line ((s.chan c).stopped state (level (s.chan c)))) :
    ChannelsLaw (endWork o cause state level s c) :=
  ((hs.of_view (channelView_releaseUse s _)).setChan (by
    rw [releaseUse_line]
    exact h (workless_stopped (hs c).presets _ _))).of_view rfl

theorem ChannelsLaw.haltChannel (hs : ChannelsLaw s) (c : Fin 8) :
    ChannelsLaw (haltChannel s c) := by
  rw [haltChannel_eq_endWork]
  exact hs.endWork fun h => h.lawful_of_off rfl rfl

theorem ChannelsLaw.forceChannel (hs : ChannelsLaw s) (c : Fin 8) :
    ChannelsLaw (forceChannel s c) := by
  rw [forceChannel_eq_endWork]
  exact hs.endWork fun h => h.lawful_of_forced rfl rfl

theorem ChannelsLaw.foldl {α : Type} {f : State → α → State} (l : List α)
    (h : ∀ s a, ChannelsLaw s → ChannelsLaw (f s a)) (hs : ChannelsLaw s) :
    ChannelsLaw (l.foldl f s) := by
  induction l generalizing s with
  | nil => exact hs
  | cons a l ih => exact ih (h s a hs)

theorem ChannelsLaw.quiesce (hs : ChannelsLaw s) : ChannelsLaw (quiesce s) :=
  ChannelsLaw.foldl allChannels (fun u c hu => by
    unfold quiesceChannel
    split
    · exact hu.haltChannel c
    · exact hu) hs

theorem ChannelsLaw.trip (hs : ChannelsLaw s) (cause : CutoffCause) :
    ChannelsLaw (trip s cause) := by
  have hmembers : ∀ u, ChannelsLaw u → ChannelsLaw (forceMembers u) := fun u hu =>
    ChannelsLaw.foldl allChannels (fun v c hv => by
      unfold forceMember
      split
      · exact hv.forceChannel c
      · exact hv) hu
  unfold Machine.trip
  dsimp only
  split
  · exact hmembers _ (hs.of_view rfl)
  · split
    · exact hs
    · exact hs.of_view rfl

theorem LawfulChannel.releaseForced {l : LineUnit} {ch : Channel} (h : LawfulChannel l ch) :
    LawfulChannel l (releaseForced ch) := by
  unfold Machine.releaseForced
  split
  · next hstate =>
    have hw := h.workless (.inr hstate)
    exact Workless.lawful_of_off { hw with presets := hw.presets } rfl rfl
  · exact h

theorem ChannelsLaw.releaseCutoff (hs : ChannelsLaw s) : ChannelsLaw (releaseCutoff s) := by
  intro c
  have hchan : (Machine.releaseCutoff s).chan c = Machine.releaseForced (s.chan c) :=
    Vector.getElem_map ..
  rw [hchan]
  exact (hs c).releaseForced

/-- SET_LINE hands its offset to every LINE-bound channel and counts it as made (R97, R98). -/
theorem ChannelsLaw.presetLine (hs : ChannelsLaw s) (v : Word) : ChannelsLaw (presetLine v s) := by
  intro c
  have hchan : (Machine.presetLine v s).chan c =
      if (s.chan c).lineBound then
        { s.chan c with presets := (s.chan c).presets ++ [v - s.line.lineBase] }
      else s.chan c := Vector.getElem_map ..
  obtain ⟨hlaw, hl⟩ := hs c
  rw [hchan]
  split
  · next hb =>
    obtain ⟨hmade, hsum⟩ := hl hb
    refine ⟨hlaw, fun _ => ⟨?_, ?_⟩⟩
    · rw [List.length_append, List.length_singleton, BitVec.ofNat_add, ← BitVec.add_assoc, hmade]
      rfl
    · rw [List.sum_append, List.sum_singleton, ← BitVec.add_assoc, hsum]
      rfl
  · next hb => exact ⟨hlaw, fun h => absurd h hb⟩

/-! ## RESTART and reset -/

/-- A channel re-initialised holds no work and has no binding (R47, R48). -/
theorem lawfulChannel_init (l : LineUnit) : LawfulChannel l Channel.init :=
  ⟨by decide, fun h => by cases h⟩

theorem channelsLaw_of_init {s : State} (h : ∀ c, s.chan c = Channel.init) : ChannelsLaw s :=
  fun c => h c ▸ lawfulChannel_init _

theorem ChannelsLaw.softReset (s : State) : ChannelsLaw (softReset s) := by
  obtain ⟨_, hchan, _⟩ := softReset_spec s _ rfl
  intro c
  rw [hchan]
  split
  · exact Workless.lawful_of_forced ⟨rfl, rfl, rfl, fun h => by cases h⟩ rfl rfl
  · exact lawfulChannel_init _

theorem ChannelsLaw.endTransmission (hs : ChannelsLaw s) (left : Int) :
    ChannelsLaw (endTransmission s left) := by
  unfold Machine.endTransmission
  dsimp only
  split
  · exact .softReset _
  · exact hs.of_view (channelView_arbitrateCarry _ _)

theorem ChannelsLaw.endStartUp (hs : ChannelsLaw s) : ChannelsLaw (endStartUp s) := by
  have key : ∀ up link line cutoff, line.presetsMade = s.line.presetsMade →
      line.offsetSum = s.line.offsetSum → ChannelsLaw
        { s with startUp := up, link := link, line := line, cutoff := cutoff } :=
    fun _ _ _ _ hmade hsum => hs.of_view (channelView_eq_iff.mpr ⟨hmade, hsum, fun _ => rfl⟩)
  unfold Machine.endStartUp
  dsimp only
  split
  · refine ChannelsLaw.trip (key _ _ _ _ ?_ ?_) .pin <;> rfl
  · refine key _ _ _ _ ?_ ?_ <;> rfl

end

/-! ## The channel requests -/

section
variable {s : State} {c : Fin 8}

/-- A binding installed on an OFF channel leaves it without work, and one that becomes LINE-bound
starts with the presets made (R75, R98). -/
theorem ChannelsLaw.installBinding (hs : ChannelsLaw s) (hoff : (s.chan c).state = .off)
    (b : Binding) : ChannelsLaw (installBinding s c b) := by
  obtain ⟨hf, hq, hp, hl⟩ := (hs c).workless (.inl hoff)
  rw [installBinding_eq]
  have huse : ChannelsLaw (releaseUse (raiseUse s b.program) (s.chan c).active) :=
    hs.of_view (channelView_releaseUse _ _)
  refine huse.setChan ?_
  rw [releaseUse_line, raiseUse_line]
  split
  · refine Workless.lawful_of_off ⟨hf, hq, hp, fun _ => ⟨?_, ?_⟩⟩ hoff rfl
    · simp
    · simp
  · next hline =>
    refine Workless.lawful_of_off ⟨hf, hq, hp, fun h => hl ?_⟩ hoff rfl
    have hb : b.base = .line := by simpa [Channel.lineBound] using h
    simpa [hb] using hline

theorem ChannelsLaw.removeBinding (hs : ChannelsLaw s) (hoff : (s.chan c).state = .off) :
    ChannelsLaw (removeBinding s c) := by
  obtain ⟨hf, hq, hp, _⟩ := (hs c).workless (.inl hoff)
  rw [removeBinding_eq]
  refine ChannelsLaw.setChan (hs.of_view (channelView_releaseUse _ _)) ?_
  exact Workless.lawful_of_off ⟨hf, hq, hp, fun h => by cases h⟩ hoff rfl

/-- A pending binding may be withdrawn in every state (R77, R81). -/
theorem ChannelsLaw.discardPending (hs : ChannelsLaw s) : ChannelsLaw (discardPending s c) := by
  rw [discardPending_eq]
  refine ChannelsLaw.setChan (hs.of_view (channelView_releaseUse _ _)) ?_
  rw [releaseUse_line]
  obtain ⟨⟨hroom, hrest, hservice, _, hlaws⟩, hl⟩ := hs c
  refine ⟨⟨hroom, fun h => ?_, hservice, (fun p hp => by cases hp), hlaws⟩, hl⟩
  obtain ⟨hf, hq, _⟩ := hrest h
  exact ⟨hf, hq, rfl⟩

/-- The staged binding has the base and mode of the active one (R73 check 5). -/
theorem keepsBase_iff {a : Option Binding} {b : Binding} :
    keepsBase a b = true ↔ ∃ x, a = some x ∧ b.base = x.base ∧ b.mode = x.mode := by
  cases a with
  | none => simp [keepsBase]
  | some x => simp [keepsBase, eq_comm (a := x.base), eq_comm (a := x.mode)]

/-- A channel in service on which a staged binding is not applied at once has a firing or pass in
progress (R76, R79). -/
theorem LawfulChannel.isSome_of_not_appliesAtOnce {l : LineUnit} {ch : Channel} {b : Binding}
    (h : LawfulChannel l ch) (hoff : ch.state ≠ .off) (hforced : ch.state ≠ .forced)
    (hb : keepsBase ch.active b = true) (hat : ¬ appliesAtOnce ch b = true) :
    ∃ f, ch.firing = some f := by
  rw [← Option.isSome_iff_exists, ← Option.ne_none_iff_isSome]
  intro hf
  obtain ⟨a, ha, _, hmode⟩ := keepsBase_iff.mp hb
  cases hs : ch.state with
  | off => exact hoff hs
  | forced => exact hforced hs
  | ready => simp [appliesAtOnce, hs] at hat
  | running =>
    obtain ⟨⟨_, _, ⟨_, hrun, _⟩, _⟩, _⟩ := h
    simpa [hf] using hrun hs
  | draining =>
    obtain ⟨x, hx, _, _, hr⟩ := h.resting (.inr hs) hf
    obtain rfl : x = a := Option.some.inj (hx.symm.trans ha)
    simp [appliesAtOnce, hs, hf, hmode, hr.mode] at hat

/-- And one on which it is applied at once has nothing in progress. -/
theorem LawfulChannel.firing_of_appliesAtOnce {l : LineUnit} {ch : Channel} {b : Binding}
    (h : LawfulChannel l ch) (hat : appliesAtOnce ch b = true) :
    (ch.state = .ready ∨ ch.state = .draining) ∧ ch.firing = none := by
  simp only [appliesAtOnce, Bool.or_eq_true, Bool.and_eq_true, decide_eq_true_eq,
    Option.isNone_iff_eq_none] at hat
  rcases hat with hs | ⟨⟨hs, _⟩, hf⟩
  · obtain ⟨⟨_, _, ⟨hready, _⟩, _⟩, _⟩ := h
    exact ⟨.inl hs, (hready hs).1⟩
  · exact ⟨.inr hs, hf⟩

/-- A binding staged on a channel in service waits behind what is in progress, or is applied at once
(R76, R79). -/
theorem ChannelsLaw.stageBinding {b : Binding} (hs : ChannelsLaw s)
    (hoff : (s.chan c).state ≠ .off) (hforced : (s.chan c).state ≠ .forced)
    (hb : keepsBase (s.chan c).active b = true) : ChannelsLaw (stageBinding s c b) := by
  obtain ⟨a, ha, hab⟩ := keepsBase_iff.mp hb
  have huse : ChannelsLaw (releaseUse (raiseUse s b.program) (s.chan c).pending) :=
    hs.of_view (channelView_releaseUse _ _)
  unfold Machine.stageBinding
  dsimp only
  split
  · next hat =>
    obtain ⟨hstate, hf⟩ := (hs c).firing_of_appliesAtOnce hat
    obtain ⟨x, hx, _, _, hr⟩ := (hs c).resting hstate hf
    obtain rfl : x = a := Option.some.inj (hx.symm.trans ha)
    have hstaged : AtWork c (fun l ch => Resting x l ch ∧
        (ch.state = .ready ∨ ch.state = .draining))
        ((releaseUse (raiseUse s b.program) (s.chan c).pending).modChan c fun ch =>
          { ch with pending := some b }) := by
      refine (huse.atWork (P := LawfulChannel) (huse c)).modChan fun _ => ?_
      rw [releaseUse_chan, raiseUse_chan, releaseUse_line, raiseUse_line]
      exact ⟨{ hr with
        pending := fun p hp => by cases hp; exact hab
        presets := hr.presets }, hstate⟩
    obtain ⟨b', happlied⟩ := hstaged.applyPending_resting
      (S := fun st => st = .ready ∨ st = .draining)
    refine AtWork.channelsLaw (happlied.modChan fun ⟨hr', hp', hs'⟩ => ?_)
    exact Resting.lawful (b := b') { hr' with presets := hr'.presets } hp' hs' rfl
  · next hat =>
    obtain ⟨f, hf⟩ := (hs c).isSome_of_not_appliesAtOnce hoff hforced hb hat
    obtain ⟨x, hx, hg⟩ := (hs c).inProgress hf
    obtain rfl : x = a := Option.some.inj (hx.symm.trans ha)
    refine huse.modChan fun _ => ?_
    rw [releaseUse_chan, raiseUse_chan, releaseUse_line, raiseUse_line]
    exact InProgress.lawful (b := x) (f := f) { hg with
      pending := fun p hp => by cases hp; exact hab
      presets := hg.presets }

theorem ChannelsLaw.bindProgram (hs : ChannelsLaw s) (b : Binding) :
    ChannelsLaw (bindProgram s c b).2 := by
  unfold Machine.bindProgram
  dsimp only
  split
  · exact hs
  split
  · exact hs
  split
  · exact hs
  next hforced =>
  split
  · next hoff => exact hs.installBinding hoff b
  next hoff =>
  split
  · exact hs
  · next hb => exact hs.stageBinding hoff hforced (by simpa using hb)

theorem ChannelsLaw.bindNothing (hs : ChannelsLaw s) : ChannelsLaw (bindNothing s c).2 := by
  unfold Machine.bindNothing
  split
  · exact hs
  · next hoff => exact hs.removeBinding hoff
  · exact hs.discardPending

/-- ENABLE leaves an OFF channel READY, or RUNNING with a pass in progress (R24). -/
theorem ChannelsLaw.enableChannel (hs : ChannelsLaw s) : ChannelsLaw (enableChannel s c).2 := by
  unfold Machine.enableChannel
  dsimp only
  split
  · exact hs
  split
  · exact hs
  next hoff =>
  split
  · exact hs
  next b ha =>
  obtain ⟨hf, hq, hp, hl⟩ := (hs c).workless (.inl (not_not.mp hoff))
  split
  · next hm =>
    refine hs.modChan fun h => Resting.lawful (b := b) ?_ hp (.inl rfl) ?_
    · exact { active := ha, mode := hm, firing := hf, room := h.room
              pending := fun p hp' => by rw [hp] at hp'; cases hp'
              presets := hl }
    · simp [Channel.idleLevel, ha]
  · next hm =>
    exact .startPass hm ((hs.atWork (P := LawfulChannel) (hs c)).modChan fun _ =>
      ⟨.inl rfl, ha, hq, hp, hl⟩)

/-- STOP of a READY channel in one rule: its queue is flushed and it goes to OFF (R25, R66). -/
theorem stopReady_eq (s : State) (c : Fin 8) :
    ((flushQueue s c .stopping).modChan c fun ch => { ch with state := .off }) =
      (s.setChan c { s.chan c with
          state := .off, queue := []
          missed := (s.chan c).missed + BitVec.ofNat 16 (s.chan c).queue.length }).withSession
        (submitAll (flushReports c (s.chan c) .stopping) s.session) := by
  rw [flushQueue_eq]
  simp only [modChan_eq, withSession_chan, withSession_setChan, setChan_chan_same, setChan_setChan]

/-- STOP leaves a RUNNING channel DRAINING, and a READY one OFF without work (R25). -/
theorem ChannelsLaw.stopChannel (hs : ChannelsLaw s) : ChannelsLaw (stopChannel s c).2 := by
  unfold Machine.stopChannel
  split
  · exact hs
  · exact hs
  · exact hs
  · next hstate =>
    obtain ⟨⟨_, _, ⟨hready, _⟩, _⟩, _⟩ := hs c
    obtain ⟨b, _, hp, hout, hr⟩ := (hs c).resting (.inl hstate) (hready hstate).1
    rw [stopReady_eq]
    refine (hs.setChan ?_).of_view rfl
    exact Workless.lawful_of_off ⟨hr.firing, rfl, hp, hr.presets⟩ rfl hout
  · next hstate =>
    refine hs.modChan fun h => ?_
    obtain ⟨⟨_, _, ⟨_, hrun, _⟩, _⟩, _⟩ := id h
    obtain ⟨f, hf⟩ := Option.isSome_iff_exists.mp (hrun hstate)
    obtain ⟨b, _, hg⟩ := h.inProgress hf
    exact InProgress.lawful (b := b) (f := f)
      { hg with service := .inr rfl, presets := hg.presets }

theorem ChannelsLaw.haltRequest (hs : ChannelsLaw s) : ChannelsLaw (haltRequest s c).2 := by
  unfold Machine.haltRequest
  split
  · exact hs
  split
  · exact hs.haltChannel c
  · exact hs

/-- FIRE finds a channel that takes triggers READY, or RUNNING with a TRIGGERED binding (R56). -/
theorem takesFire_iff (ch : Channel) (b : Binding) :
    takesFire ch b = true ↔ ch.state = .ready ∨ (ch.state = .running ∧ b.mode = .triggered) := by
  simp [takesFire]

theorem ChannelsLaw.fireChannel (hs : ChannelsLaw s) (tag : Half) (presence : Byte) (due : Word) :
    ChannelsLaw (fireChannel s c tag presence due).2 := by
  unfold Machine.fireChannel
  dsimp only
  split
  · exact hs
  split
  · exact hs
  next b ha =>
  split
  · exact hs
  next htakes =>
  split
  · exact hs
  split
  · exact hs
  next hroom =>
  have htakes : takesFire (s.chan c) b = true := by simpa using htakes
  exact hs.createEntry ha ((takesFire_iff _ _).mp htakes) (Nat.lt_of_not_le hroom)

theorem ChannelsLaw.setOptions (hs : ChannelsLaw s) (member : Bool) (safe : Level) :
    ChannelsLaw (setOptions s c member safe).2 := by
  unfold Machine.setOptions
  split
  · exact hs
  split
  · exact hs
  next hoff =>
  have hoff : (s.chan c).state = .off := not_not.mp hoff
  refine hs.modChan fun h => ?_
  have hw := h.workless (.inl hoff)
  obtain ⟨⟨_, _, _, _, ⟨_, hout⟩, _⟩, _⟩ := h
  exact Workless.lawful_of_off { hw with presets := hw.presets } hoff
    (hout (by simp [hoff]) hw.firing)

end

/-! ## The answers -/

/-- The execution of a request with this answer keeps the channel laws. -/
def KeepsChannels (answer : State → List Byte → Answer × State) : Prop :=
  ∀ s payload, ChannelsLaw s → ChannelsLaw (answer s payload).2

theorem ChannelsLaw.serveRequest {s : State} {answer : State → List Byte → Answer × State}
    (hs : ChannelsLaw s) (k : Byte) (h : KeepsChannels answer) :
    ChannelsLaw (serveRequest k answer s) := by
  unfold Machine.serveRequest takeRequest
  split
  · exact hs
  · next heq =>
    split at heq
    · cases heq
    · split at heq
      · cases heq
        refine ChannelsLaw.of_view (h _ _ ?_) (channelView_concludeRequest _ _ _)
        exact hs.of_view rfl
      · cases heq

theorem ChannelsLaw.execReject {s : State} (hs : ChannelsLaw s) :
    ∃ t, execReject s = .next t ∧ ChannelsLaw t := by
  refine ⟨_, rfl, ?_⟩
  unfold takeRequest
  split
  · exact hs
  · next heq =>
    split at heq
    · cases heq
    · split at heq
      · cases heq
        exact hs.of_view (channelView_concludeRequest _ _ _)
      · cases heq

theorem ChannelsLaw.inSession {s : State} {n : Nat} {k : Answer × State} (hs : ChannelsLaw s)
    (hk : ChannelsLaw k.2) : ChannelsLaw (inSession s n k).2 := by
  unfold Machine.inSession
  split
  · exact hs
  · exact hk

theorem keepsChannels_channelRequest {n : Nat} {k : State → Fin 8 → Answer × State}
    (h : ∀ s c, ChannelsLaw s → ChannelsLaw (k s c).2) : KeepsChannels (channelRequest n k) := by
  intro s payload hs
  unfold channelRequest
  split
  · refine hs.inSession ?_
    split
    · exact hs
    · exact h s _ hs
  · exact hs

/-! ### Answers that leave the channels as they are -/

theorem keepsChannels_status : KeepsChannels answerStatus := by
  intro s payload hs
  unfold answerStatus
  split
  · split
    · exact hs
    · exact hs.of_view rfl
    · exact hs
  · exact hs

theorem keepsChannels_ident : KeepsChannels answerIdent := by
  intro s payload hs
  unfold answerIdent
  split <;> exact hs

theorem keepsChannels_restart : KeepsChannels answerRestart := by
  intro s payload hs
  unfold answerRestart
  split
  · exact hs.of_view rfl
  · exact hs

theorem keepsChannels_openSession : KeepsChannels answerOpenSession := by
  intro s payload hs
  have hnew : ∀ u se l, ChannelsLaw u → ChannelsLaw { u with session := se, link := l } :=
    fun _ _ _ hu => hu.of_view rfl
  have hopen : ∀ silence resend mask, ChannelsLaw (openSession s silence resend mask) :=
    fun silence resend mask => by
      unfold openSession
      dsimp only
      split
      · exact hnew _ _ _ (hs.of_view (channelView_closeSession s .reopen))
      · exact hnew _ _ _ hs
  unfold answerOpenSession
  split
  · dsimp only
    split
    · exact hs
    split
    · exact hs
    split
    · exact hs
    · exact hopen _ _ _
  · exact hs

theorem keepsChannels_ackReports : KeepsChannels answerAckReports := by
  intro s payload hs
  unfold answerAckReports
  split
  · refine hs.inSession ?_
    split
    · exact hs
    · exact hs.of_view rfl
  · exact hs

/-- A program-changing request moves the store alone (R5). -/
theorem ChannelsLaw.changeProgram {s : State} {id : Byte} {k : Fin 32 → Answer × State}
    (hs : ChannelsLaw s) (hk : ∀ q, channelView (k q).2 = channelView s) :
    ChannelsLaw (changeProgram s id k).2 := by
  unfold Machine.changeProgram
  split
  · exact hs
  · split
    · exact hs
    · exact hs.of_view (hk _)

theorem keepsChannels_defineProgram : KeepsChannels answerDefineProgram := by
  intro s payload hs
  unfold answerDefineProgram
  split
  · refine hs.changeProgram fun q => ?_
    unfold defineProgram
    split
    · rfl
    split
    · rfl
    split <;> rfl
  · exact hs

theorem keepsChannels_appendSteps : KeepsChannels answerAppendSteps := by
  intro s payload hs
  unfold answerAppendSteps
  split
  · split
    · refine hs.changeProgram fun q => ?_
      unfold appendSteps
      dsimp only
      split
      · rfl
      split
      · rfl
      split
      · rfl
      split
      · rfl
      split <;> rfl
    · exact hs
  · exact hs

theorem keepsChannels_sealProgram : KeepsChannels answerSealProgram := by
  intro s payload hs
  unfold answerSealProgram
  split
  · refine hs.changeProgram fun q => ?_
    unfold sealProgram
    dsimp only
    split
    · rfl
    split <;> rfl
  · exact hs

theorem keepsChannels_discardProgram : KeepsChannels answerDiscardProgram := by
  intro s payload hs
  unfold answerDiscardProgram
  split
  · refine hs.changeProgram fun q => ?_
    unfold discardProgram
    split <;> rfl
  · exact hs

theorem keepsChannels_deleteProgram : KeepsChannels answerDeleteProgram := by
  intro s payload hs
  unfold answerDeleteProgram
  split
  · refine hs.changeProgram fun q => ?_
    unfold deleteProgram
    split
    · rfl
    split <;> rfl
  · exact hs

theorem keepsChannels_programInfo : KeepsChannels answerProgramInfo := by
  intro s payload hs
  unfold answerProgramInfo
  split
  · refine hs.inSession ?_
    split <;> exact hs
  · exact hs

theorem keepsChannels_programRead : KeepsChannels answerProgramRead := by
  intro s payload hs
  unfold answerProgramRead
  split
  · refine hs.inSession ?_
    split <;> exact hs
  · exact hs

theorem keepsChannels_readTime : KeepsChannels answerReadTime := by
  intro s payload hs
  unfold answerReadTime
  split
  · exact hs.inSession hs
  · exact hs

theorem keepsChannels_routeAdd : KeepsChannels answerRouteAdd := by
  intro s payload hs
  unfold answerRouteAdd
  split
  · refine hs.inSession ?_
    split
    · unfold addRoute
      split
      · exact hs
      · split
        · exact hs
        · exact hs.of_view rfl
    · exact hs
  · exact hs

theorem keepsChannels_routeRemove : KeepsChannels answerRouteRemove := by
  intro s payload hs
  unfold answerRouteRemove
  split
  · refine hs.inSession ?_
    split
    · exact hs
    split
    · exact hs
    · exact hs.of_view rfl
  · exact hs

theorem keepsChannels_routeList : KeepsChannels answerRouteList := by
  intro s payload hs
  unfold answerRouteList
  split
  · exact hs.inSession hs
  · exact hs

theorem keepsChannels_readCaptures : KeepsChannels answerReadCaptures := by
  intro s payload hs
  unfold answerReadCaptures
  split
  · refine hs.inSession ?_
    split
    · exact hs
    split
    · exact hs
    · exact hs.of_view rfl
  · exact hs

theorem keepsChannels_captureStream : KeepsChannels answerCaptureStream := by
  intro s payload hs
  unfold answerCaptureStream
  split
  · refine hs.inSession ?_
    split
    · exact hs
    · dsimp only
      unfold setStreaming
      dsimp only
      split <;> exact hs.of_view rfl
  · exact hs

theorem keepsChannels_captureConfig : KeepsChannels answerCaptureConfig := by
  intro s payload hs
  have hconfig : ∀ i m l f, ChannelsLaw (configureCapture s i m l f) := fun i m l f => by
    have hinput : ∀ r, ChannelsLaw (s.setInput i r) := fun _ => hs.of_view rfl
    unfold configureCapture
    dsimp only
    split
    · exact (hinput _).of_view (channelView_acceptEdge _ _ _)
    · exact hinput _
  unfold answerCaptureConfig
  split
  · refine hs.inSession ?_
    split
    · exact hs
    split
    · exact hconfig _ _ _ _
    · exact hs
  · exact hs

theorem keepsChannels_timebaseConfig : KeepsChannels answerTimebaseConfig := by
  intro s payload hs
  unfold answerTimebaseConfig
  split
  · refine hs.inSession ?_
    split
    · exact hs
    dsimp only
    split
    · exact hs
    · refine ChannelsLaw.of_view ?_ (channelView_applyLineSettings _)
      exact hs.of_view rfl
  · exact hs

/-! ### Answers that move the channels -/

theorem keepsChannels_closeSession : KeepsChannels answerCloseSession := by
  intro s payload hs
  unfold answerCloseSession
  split
  · refine hs.inSession ?_
    split
    · exact hs
    all_goals dsimp only
    · exact hs.quiesce.of_view (channelView_closeSession _ _)
    · exact hs.of_view (channelView_closeSession _ _)
  · exact hs

theorem keepsChannels_cutoff : KeepsChannels answerCutoff := by
  intro s payload hs
  unfold answerCutoff
  split
  · exact hs.trip .request
  · exact hs

theorem keepsChannels_cutoffRelease : KeepsChannels answerCutoffRelease := by
  intro s payload hs
  unfold answerCutoffRelease
  split
  · refine hs.inSession ?_
    split
    · exact hs
    split
    · exact hs
    · exact hs.releaseCutoff
  · exact hs

theorem keepsChannels_setChannelOptions : KeepsChannels answerSetChannelOptions := by
  intro s payload hs
  unfold answerSetChannelOptions
  split
  · refine hs.inSession ?_
    split
    · exact hs
    split
    · exact hs.setOptions _ _
    · exact hs
  · exact hs

theorem keepsChannels_bind : KeepsChannels answerBind := by
  intro s payload hs
  unfold answerBind
  split
  · refine hs.inSession ?_
    split
    · exact hs
    split
    · exact hs.bindNothing
    split
    · exact hs
    split
    · exact hs
    · exact hs.bindProgram _
  · exact hs

theorem keepsChannels_fire : KeepsChannels answerFire := by
  intro s payload hs
  unfold answerFire
  split
  · refine hs.inSession ?_
    split
    · exact hs
    · exact hs.fireChannel _ _ _
  · exact hs

theorem keepsChannels_setLine : KeepsChannels answerSetLine := by
  intro s payload hs
  unfold answerSetLine
  split
  · exact hs.inSession (hs.presetLine _)
  · exact hs

/-! ## Every command -/

/-- A request row keeps the channel laws when its answer does. -/
theorem ChannelsLaw.next_serve {s : State} {k : Byte}
    {answer : State → List Byte → Answer × State} (hs : ChannelsLaw s)
    (h : KeepsChannels answer) :
    ∃ t, (.next (Machine.serveRequest k answer s) : Host.Outcome State Fault Refusal) = .next t ∧
      ChannelsLaw t := ⟨_, rfl, hs.serveRequest k h⟩

/-- A happening keeps the channel laws when the state it leaves does (log 2). -/
theorem ChannelsLaw.next_if {s t : State} {p : Prop} [Decidable p] (hs : ChannelsLaw s)
    (ht : ChannelsLaw t) :
    ∃ u, (.next (if p then t else s) : Host.Outcome State Fault Refusal) = .next u ∧
      ChannelsLaw u := ⟨_, rfl, by split; exacts [ht, hs]⟩

/-- The firing or pass whose step end point is reached is the channel's (R32). -/
theorem stepEndReached_eq_some {s : State} {c : Fin 8} {b : Binding} {f : Firing}
    (h : stepEndReached s c = some (b, f)) :
    (s.chan c).active = some b ∧ (s.chan c).firing = some f := by
  unfold stepEndReached at h
  dsimp only at h
  split at h
  · next ha hf =>
    split at h
    · cases h
      exact ⟨ha, hf⟩
    · cases h
  · cases h

/-- Every command has a next state, and it keeps the channel laws. -/
theorem ChannelsLaw.exec {s : State} (hs : ChannelsLaw s) (i : Instr) :
    ∃ t, exec i s = .next t ∧ ChannelsLaw t := by
  cases i with
  | ident => exact hs.next_serve keepsChannels_ident
  | status => exact hs.next_serve keepsChannels_status
  | openSession => exact hs.next_serve keepsChannels_openSession
  | closeSession => exact hs.next_serve keepsChannels_closeSession
  | ackReports => exact hs.next_serve keepsChannels_ackReports
  | restart => exact hs.next_serve keepsChannels_restart
  | cutoff => exact hs.next_serve keepsChannels_cutoff
  | cutoffRelease => exact hs.next_serve keepsChannels_cutoffRelease
  | setChannelOptions => exact hs.next_serve keepsChannels_setChannelOptions
  | defineProgram => exact hs.next_serve keepsChannels_defineProgram
  | appendSteps => exact hs.next_serve keepsChannels_appendSteps
  | sealProgram => exact hs.next_serve keepsChannels_sealProgram
  | discardProgram => exact hs.next_serve keepsChannels_discardProgram
  | deleteProgram => exact hs.next_serve keepsChannels_deleteProgram
  | programInfo => exact hs.next_serve keepsChannels_programInfo
  | programRead => exact hs.next_serve keepsChannels_programRead
  | bind => exact hs.next_serve keepsChannels_bind
  | enable => exact hs.next_serve (keepsChannels_channelRequest fun _ _ h => h.enableChannel)
  | stop => exact hs.next_serve (keepsChannels_channelRequest fun _ _ h => h.stopChannel)
  | halt => exact hs.next_serve (keepsChannels_channelRequest fun _ _ h => h.haltRequest)
  | fire => exact hs.next_serve keepsChannels_fire
  | channelStatus => exact hs.next_serve (keepsChannels_channelRequest fun _ _ h => h)
  | timebaseConfig => exact hs.next_serve keepsChannels_timebaseConfig
  | setLine => exact hs.next_serve keepsChannels_setLine
  | readTime => exact hs.next_serve keepsChannels_readTime
  | captureConfig => exact hs.next_serve keepsChannels_captureConfig
  | routeAdd => exact hs.next_serve keepsChannels_routeAdd
  | routeRemove => exact hs.next_serve keepsChannels_routeRemove
  | routeList => exact hs.next_serve keepsChannels_routeList
  | readCaptures => exact hs.next_serve keepsChannels_readCaptures
  | captureStream => exact hs.next_serve keepsChannels_captureStream
  | reject => exact hs.execReject
  | frameComplete b => exact hs.next_if (hs.of_view (channelView_receive b s))
  | invalidLenByte b => exact hs.next_if (hs.of_view (channelView_receive b s))
  | receivedByte b => exact hs.next_if (hs.of_view (channelView_receive b s))
  | interByteGapTimeout => exact hs.next_if (hs.of_view rfl)
  | transmissionEnd =>
    refine ⟨_, rfl, ?_⟩
    split
    · exact hs
    split
    · exact hs.endTransmission _
    · exact hs
  | hardReset cause baud1 baud0 =>
    exact hs.next_if (channelsLaw_of_init fun c => by
      simp [State.chan, State.reset])
  | startUpEnd => exact hs.next_if (hs.endStartUp.of_view (channelView_arbitrate _))
  | lineRise =>
    exact hs.next_if ((hs.of_view (channelView_riseLine s)).of_view (channelView_arbitrate _))
  | lineFall => exact hs.next_if (hs.of_view rfl)
  | lineStallDetected =>
    exact hs.next_if ((hs.of_view (channelView_stallLine s)).of_view (channelView_arbitrate _))
  | captureEdge i =>
    refine ⟨_, rfl, ?_⟩
    split
    · exact (hs.of_view (channelView_acceptEdge s i _)).of_view (channelView_arbitrate _)
    · exact hs
  | cutoffNAssertion =>
    have key : ∀ k, ChannelsLaw { s with cutoff := k } := fun _ => hs.of_view rfl
    exact hs.next_if (((key _).trip .pin).of_view (channelView_arbitrate _))
  | cutoffNDeassertion => exact hs.next_if (hs.of_view rfl)
  | silenceExpiry =>
    exact hs.next_if (((hs.trip .silence).of_view (channelView_closeSession _ .silence)).of_view
      (channelView_arbitrate _))
  | resendExpiry => exact hs.next_if (hs.of_view (channelView_arbitrate _))
  | headEntryDue c => exact hs.next_if (hs.handleDue.of_view (channelView_arbitrate _))
  | stepEnd c =>
    refine ⟨_, rfl, ?_⟩
    split
    · next b f heq =>
      obtain ⟨ha, hf⟩ := stepEndReached_eq_some heq
      split
      · exact (hs.endStep ha hf).of_view (channelView_arbitrate _)
      · exact hs
    · exact hs
  | holdUntilTimeout c =>
    refine ⟨_, rfl, ?_⟩
    split
    · next b f heq =>
      obtain ⟨ha, hf⟩ := stepEndReached_eq_some heq
      split
      · have hsubmit : ∀ r, ChannelsLaw (submit s r) := fun _ => hs.of_view rfl
        exact ((hsubmit _).endStep ha hf).of_view (channelView_arbitrate _)
      · exact hs
    · exact hs
  | holdUntilEdge c =>
    refine ⟨_, rfl, ?_⟩
    split
    · exact hs
    · exact ((hs.of_view (channelView_modChan s c _ rfl)).takeOffer _).of_view
        (channelView_arbitrate _)
  | routeTrigger c =>
    refine ⟨_, rfl, ?_⟩
    split
    · exact hs
    · exact ((hs.of_view (channelView_modChan s c _ rfl)).takeTrigger _).of_view
        (channelView_arbitrate _)
  | stallNotice c =>
    refine ⟨_, rfl, ?_⟩
    split
    · exact hs
    · exact (ChannelsLaw.actOnStall (hs.of_view (channelView_modChan s c _ rfl))).of_view
        (channelView_arbitrate _)
  | linePresetTaken c =>
    refine ⟨_, rfl, ?_⟩
    split
    · exact hs
    · next hp => exact hs.modChan fun h => h.takePreset hp
  | entryOverdueDiscard c => exact hs.next_if ((hs.dropHeads _ _).of_view (channelView_arbitrate _))
  | timeBaseTick pins => exact ⟨_, rfl, hs.of_view (channelView_tick pins s)⟩

/-- Settles O56: the front command is run on a state with the same view, and every command keeps the
channel laws. -/
theorem stepKeepsChannelLaws : Obligations.StepKeepsChannelLaws := by
  intro s t hchan hpreset hstep
  rw [← channelsLaw_iff]
  have hs : ChannelsLaw s := channelsLaw_iff.mpr ⟨hchan, hpreset⟩
  unfold step at hstep
  split at hstep
  · cases hstep
    exact hs
  · next i rest _ =>
    have hrest : ChannelsLaw { s with pending := rest } := hs.of_view rfl
    obtain ⟨u, hu, hlaw⟩ := hrest.exec i
    rw [hu] at hstep
    cases hstep
    exact hlaw

/-! ## ENABLE, STOP and HALT -/

theorem channelRequest_of_names {n : Nat} {k : State → Fin 8 → Answer × State} {s : State}
    {x : Byte} {c : Fin 8} (ho : s.session.state = .opened) (h : NamesChannel x c) :
    channelRequest n k s [x] = k s c := by
  rw [channelRequest, inSession_of_opened ho, channelOf_of_names h]

theorem channelRequest_of_large {n : Nat} {k : State → Fin 8 → Answer × State} {s : State}
    {x : Byte} (ho : s.session.state = .opened) (h : 8 ≤ x.toNat) :
    channelRequest n k s [x] = (refusal .badValue n, s) := by
  rw [channelRequest, inSession_of_opened ho, channelOf_of_large h]

/-- A request row whose payload is a channel number executes what its rule says of that channel
(R23, R146). -/
theorem Executed.of_channel {i : Instr} {n : Nat} {k : State → Fin 8 → Answer × State} {s t : State}
    {r : Request} {x : Byte} {c : Fin 8} {result : Result} {fields : List Byte}
    (hi : Answers i (channelRequest n k)) (hs : Serves s r) (hk : kindOfCommand i = some r.kind)
    (ho : s.session.state = .opened) (hp : r.payload = [x]) (hx : NamesChannel x c)
    (h : k (popRequest s) c = ({ result := result, fields := fields }, t)) :
    Executed i s r result fields t :=
  hi.executed hs hk (hp ▸ (channelRequest_of_names (s := popRequest s) ho hx).trans h)

theorem Executed.of_badChannel {i : Instr} {n : Nat} {k : State → Fin 8 → Answer × State}
    {s : State} {r : Request} {x : Byte} (hi : Answers i (channelRequest n k)) (hs : Serves s r)
    (hk : kindOfCommand i = some r.kind) (ho : s.session.state = .opened) (hp : r.payload = [x])
    (hx : 8 ≤ x.toNat) : Executed i s r .badValue (zeros n) (popRequest s) :=
  hi.executed hs hk (hp ▸ channelRequest_of_large (s := popRequest s) ho hx)

section
variable {s : State} {c : Fin 8}

theorem enableChannel_of_trippedMember (hm : (s.chan c).member = true)
    (hl : s.cutoff.latch = .tripped) :
    enableChannel s c = (stateAnswer s c .cutoffActive, s) := if_pos ⟨hm, hl⟩

theorem enableChannel_of_badState
    (hn : ¬ ((s.chan c).member = true ∧ s.cutoff.latch = .tripped))
    (h : (s.chan c).state ≠ .off ∨ (s.chan c).active = none) :
    enableChannel s c = (stateAnswer s c .state, s) := by
  refine (if_neg hn).trans ?_
  by_cases hoff : (s.chan c).state = .off
  · rw [if_neg (not_not.mpr hoff), h.resolve_left (not_not.mpr hoff)]
  · exact if_pos hoff

/-- ENABLE in TRIGGERED mode: READY at the idle level (R24). -/
theorem enableChannel_of_triggered
    (hn : ¬ ((s.chan c).member = true ∧ s.cutoff.latch = .tripped))
    (hoff : (s.chan c).state = .off) {b : Binding} (ha : (s.chan c).active = some b)
    (hm : b.mode = .triggered) :
    enableChannel s c = ({ result := .ok, fields := [1] },
      s.setChan c { s.chan c with state := .ready, output := b.idle }) := by
  refine (if_neg hn).trans ((if_neg (not_not.mpr hoff)).trans ?_)
  simp only [ha, hm, stateAnswer, modChan_eq, setChan_chan_same]
  rfl

/-- ENABLE in CONTINUOUS mode: RUNNING, the first pass begun now (R24, R31). -/
theorem enableChannel_of_continuous
    (hn : ¬ ((s.chan c).member = true ∧ s.cutoff.latch = .tripped))
    (hoff : (s.chan c).state = .off) {b : Binding} (ha : (s.chan c).active = some b)
    (hm : b.mode = .continuous) {st : ProgStep} {rest : List ProgStep}
    (hsteps : (s.prog b.program).steps = st :: rest) :
    enableChannel s c = ({ result := .ok, fields := [2] },
      s.setChan c (runsStep b.idle (startedAt none (s.prog b.program).loopCount (chanNow s c)) 0 st
        (chanNow s c) { s.chan c with state := .running })) := by
  have hstart : startPass (s.modChan c fun ch => { ch with state := .running }) c b (chanNow s c) =
      s.setChan c (runsStep b.idle (startedAt none (s.prog b.program).loopCount (chanNow s c)) 0 st
        (chanNow s c) { s.chan c with state := .running }) := by
    rw [startPass_of_steps (s := s.modChan c _) (st := st) (more := rest) hsteps, modChan_eq,
      setChan_chan_same, setChan_setChan, setChan_prog]
  refine (if_neg hn).trans ((if_neg (not_not.mpr hoff)).trans ?_)
  rw [ha]
  dsimp only
  rw [hm]
  dsimp only
  rw [hstart, stateAnswer, setChan_chan_same]
  rfl

end

/-- Settles O16: the checks of ENABLE in their order, then the start by mode. -/
theorem enablePutsIntoService : Obligations.EnablePutsIntoService := by
  intro s r x hs hk ho hp
  have hi : Answers .enable (channelRequest 1 enableChannel) := ⟨_, rfl, fun _ => rfl⟩
  have hkind := congrArg some hk.symm
  refine ⟨fun hx => .of_badChannel hi hs hkind ho hp hx, fun c hx => ⟨fun hm hl => ?_,
    fun hn hst => ?_, fun hn hoff b ha => ⟨fun hm => ?_, fun hm st rest hsteps => ?_⟩⟩⟩
  all_goals refine .of_channel hi hs hkind ho hp hx ?_
  · exact enableChannel_of_trippedMember hm hl
  · exact enableChannel_of_badState (s := popRequest s) hn hst
  · exact enableChannel_of_triggered (s := popRequest s) hn hoff ha hm
  · exact enableChannel_of_continuous (s := popRequest s) hn hoff ha hm hsteps

/-- Settles O17: STOP by the channel's state; in READY by `stopReady_eq`. -/
theorem stopDrainsOrFlushes : Obligations.StopDrainsOrFlushes := by
  intro s r x hs hk ho hp
  have hi : Answers .stop (channelRequest 1 stopChannel) := ⟨_, rfl, fun _ => rfl⟩
  have hkind := congrArg some hk.symm
  refine ⟨fun hx => .of_badChannel hi hs hkind ho hp hx, fun c hx => ⟨fun hst => ?_,
    fun hst => ?_, fun hst => ?_, fun hst => ?_, fun hst => ?_⟩⟩
  all_goals
    refine .of_channel hi hs hkind ho hp hx ?_
    simp only [stopChannel, popRequest_chan, hst]
  · simp only [stateAnswer, popRequest_chan, hst]; rfl
  · simp only [stateAnswer, popRequest_chan, hst]; rfl
  · simp only [stateAnswer, popRequest_chan, hst]; rfl
  · simp only [stateAnswer, modChan_eq, setChan_chan_same]; rfl
  · simp only [stopReady_eq, stateAnswer, withSession_chan, setChan_chan_same]; rfl

/-- Settles O18: HALT by the channel's state; in service by `haltChannel_eq`. -/
theorem haltEndsAllWork : Obligations.HaltEndsAllWork := by
  intro s r x hs hk ho hp
  have hi : Answers .halt (channelRequest 1 haltRequest) := ⟨_, rfl, fun _ => rfl⟩
  have hkind := congrArg some hk.symm
  refine ⟨fun hx => .of_badChannel hi hs hkind ho hp hx, fun c hx => ⟨fun hst => ?_,
    fun hst => ?_, fun hst => ?_⟩⟩
  all_goals refine .of_channel hi hs hkind ho hp hx ?_
  · refine (if_pos hst).trans ?_
    simp only [stateAnswer, popRequest_chan, hst]; rfl
  · have hidle : (s.chan c).haltable = false := by simp [Channel.haltable, hst]
    simp only [haltRequest, stateAnswer, popRequest_chan, hst, hidle]; rfl
  · have hforced : (s.chan c).state ≠ .forced := fun h => by simp [Channel.haltable, h] at hst
    refine (if_neg hforced).trans ((if_pos hst).trans ?_)
    simp only [haltChannel_eq, stateAnswer, withSession_chan, setChan_chan_same]; rfl

/-! ## CHANNEL_STATUS -/

/-- Settles O10: the fields in their order, the optional ones by whether they are present. -/
theorem channelStatusTellsRecord : Obligations.ChannelStatusTellsRecord := by
  intro s r x hs hk ho hp
  have hi : Answers .channelStatus (channelRequest 38 fun s c => (channelStatus (s.chan c), s)) :=
    ⟨_, rfl, fun _ => rfl⟩
  have hkind := congrArg some hk.symm
  refine ⟨fun hx => .of_badChannel hi hs hkind ho hp hx, fun c hx ch hch => ?_⟩
  refine .of_channel hi hs hkind ho hp hx ?_
  rw [popRequest_chan, hch]
  refine congrArg (fun fields => (({ result := .ok, fields := fields } : Answer), popRequest s)) ?_
  have hhead : (ch.queue.head?.map Entry.due).isSome = !ch.queue.isEmpty := by
    cases ch.queue <;> rfl
  have hnumbered : ch.firingNumber.isSome = (ch.firing.bind Firing.entry).isSome :=
    Option.isSome_map
  rw [hhead, hnumbered]
  simp only [List.append_assoc]
  refine congrArg₂ (· ++ ·) rfl (congrArg₂ (· ++ ·) ?active (congrArg₂ (· ++ ·) ?pending
    (congrArg₂ (· ++ ·) ?due (congrArg₂ (· ++ ·) ?number
      ((List.append_assoc ..).symm.trans (congrArg₂ (· ++ ·) ?step rfl))))))
  case active => cases ch.active <;> rfl
  case pending => cases ch.pending <;> rfl
  case due => cases ch.queue <;> rfl
  case number =>
    unfold Channel.firingNumber
    cases ch.firing.bind Firing.entry <;> rfl
  case step => cases ch.firing <;> rfl

/-! ## FIRE -/

theorem answerFire_of_badChannel {s : State} {x : Byte} {rest : List Byte}
    (ho : s.session.state = .opened) (hl : rest.length = 7) (hx : 8 ≤ x.toNat) :
    answerFire s (x :: rest) = (refusal .badValue 7, s) :=
  match rest, hl with
  | [_, _, _, _, _, _, _], _ => by
    rw [answerFire, inSession_of_opened ho, channelOf_of_large hx]

/-- The fields of a FIRE are read back whole (R56, section 10.4). -/
theorem answerFire_of_fields {s : State} {c : Fin 8} {tag : Half} {presence : Byte} {due : Word}
    (ho : s.session.state = .opened) :
    answerFire s ([byteOf c.val] ++ le16 tag ++ [presence] ++ le32 due) =
      fireChannel s c tag presence due := by
  show answerFire s [byteOf c.val, _, _, presence, _, _, _, _] = _
  rw [answerFire, inSession_of_opened ho, channelOf_byteOf]
  dsimp only
  rw [read16_le16, read32_le32]

section
variable {s : State} {c : Fin 8} {tag : Half} {presence : Byte} {due : Word}

theorem fireChannel_of_forced (h : (s.chan c).state = .forced) :
    fireChannel s c tag presence due = (fireRefused s c .cutoffActive, s) := if_pos h

/-- A channel that takes no triggers refuses FIRE with STATE (R56 check 2). -/
theorem fireChannel_of_state (hf : (s.chan c).state ≠ .forced)
    (h : ∀ b, (s.chan c).active = some b → takesFire (s.chan c) b = false) :
    fireChannel s c tag presence due = (fireRefused s c .state, s) := by
  refine (if_neg hf).trans ?_
  cases ha : (s.chan c).active with
  | none => rfl
  | some b => simp [h b ha]

/-- Where the channel takes triggers, a due point that is refused refuses the request (R56
check 3). -/
theorem fireChannel_of_badDue {b : Binding} {r : Result} (ha : (s.chan c).active = some b)
    (h : (s.chan c).state = .ready ∨ ((s.chan c).state = .running ∧ b.mode = .triggered))
    (hd : fireDue b (chanNow s c) presence due = .error r) :
    fireChannel s c tag presence due = (fireRefused s c r, s) := by
  have ht : takesFire (s.chan c) b = true := (takesFire_iff _ _).mpr h
  refine (if_neg (by rcases h with h | ⟨h, _⟩ <;> simp [h])).trans ?_
  rw [ha]
  dsimp only
  rw [ht, hd]
  rfl

/-- With a due point the entry is created where the queue has room for it (R56 check 4, R57). -/
theorem fireChannel_of_due {b : Binding} {d : Word} (ha : (s.chan c).active = some b)
    (h : (s.chan c).state = .ready ∨ ((s.chan c).state = .running ∧ b.mode = .triggered))
    (hd : fireDue b (chanNow s c) presence due = .ok d) :
    fireChannel s c tag presence due =
      if 16 ≤ (s.chan c).queue.length then (fireRefused s c .noSpace, s)
      else
        ({ result := .ok
           fields := le16 (s.chan c).nextNumber ++ le32 d ++
             [byteOf ((createEntry s c (.host tag) (chanNow s c) d).chan c).queue.length] },
          createEntry s c (.host tag) (chanNow s c) d) := by
  have ht : takesFire (s.chan c) b = true := (takesFire_iff _ _).mpr h
  refine (if_neg (by rcases h with h | ⟨h, _⟩ <;> simp [h])).trans ?_
  rw [ha]
  dsimp only
  rw [ht, hd]
  rfl

end

theorem fireDue_of_badCode {b : Binding} {now due : Word} {presence : Byte}
    (h : 2 ≤ presence.toNat) : fireDue b now presence due = .error .badValue := by
  rw [fireDue, (twoValues_of_large h).1]

/-- Without a due point FIRE takes now plus the delay (R57). -/
theorem fireDue_of_absent (b : Binding) (now due : Word) :
    fireDue b now 0 due = .ok (now + b.delay.setWidth 32) := rfl

/-- An explicit due point must not be past, nor more than 2^30 ahead (R56 check 3). -/
theorem fireDue_of_present (b : Binding) (now due : Word) :
    (atOrAfter due now = false → fireDue b now 1 due = .error .past) ∧
      (atOrAfter due now = true → 1073741824 < (due - now).toNat →
        fireDue b now 1 due = .error .badValue) ∧
      ((due - now).toNat ≤ 1073741824 → fireDue b now 1 due = .ok due) := by
  have hcode : boolOf 1 = some true := rfl
  simp only [fireDue, hcode, Config.horizon]
  refine ⟨fun h => by simp [h], fun h hfar => ?_, fun h => ?_⟩
  · rw [h]
    exact if_pos hfar
  · have hafter : atOrAfter due now = true := by
      simp only [atOrAfter, decide_eq_true_eq]
      omega
    rw [hafter]
    exact if_neg (Nat.not_lt_of_le h)

/-- Settles O19: the checks of FIRE in their order, then the entry by `entryCreated_createEntry`. -/
theorem fireCreatesAnEntry : Obligations.FireCreatesAnEntry := by
  intro s r hs hk ho
  have ho' : (popRequest s).session.state = .opened := ho
  have hi : Answers .fire answerFire := ⟨_, rfl, fun _ => rfl⟩
  have hkind := congrArg some hk.symm
  refine ⟨fun x rest hp hl hx =>
    hi.executed hs hkind (hp ▸ answerFire_of_badChannel ho' hl hx), ?_⟩
  intro c tag presence due hp refused hrefused
  have hrun : ∀ {result fields t},
      fireChannel (popRequest s) c tag presence due = (⟨result, fields⟩, t) →
        Executed .fire s r result fields t := fun h =>
    hi.executed hs hkind (hp ▸ (answerFire_of_fields ho').trans h)
  have hrefuse : ∀ {result}, fireChannel (popRequest s) c tag presence due =
      (fireRefused (popRequest s) c result, popRequest s) →
        Executed .fire s r result refused (popRequest s) := fun h => by
    subst hrefused
    exact hrun h
  refine ⟨fun h => hrefuse (fireChannel_of_forced h), fun h => hrefuse ?_, fun b ha => ⟨?_, ?_⟩⟩
  · refine fireChannel_of_state ?_ fun b _ => ?_
    · rcases h with h | h <;> simp [h]
    · rcases h with h | h <;> simp [takesFire, h]
  · intro h hm
    refine hrefuse (fireChannel_of_state (by simp [h]) fun b' ha' => ?_)
    obtain rfl : b = b' := Option.some.inj (ha.symm.trans ha')
    simp [takesFire, h, hm]
  · intro h
    have hbad : ∀ {result}, fireDue b (chanNow s c) presence due = .error result →
        Executed .fire s r result refused (popRequest s) := fun hd =>
      hrefuse (fireChannel_of_badDue (s := popRequest s) ha h hd)
    obtain ⟨hpast, hfar, hnear⟩ := fireDue_of_present b (chanNow s c) due
    refine ⟨fun hcode => hbad (fireDue_of_badCode hcode), ?_, ?_, fun d hd => ?_⟩
    · rintro rfl h1
      exact hbad (hpast h1)
    · rintro rfl h1 h2
      exact hbad (hfar h1 h2)
    · have hdue : fireDue b (chanNow s c) presence due = .ok d := by
        rcases hd with ⟨rfl, rfl⟩ | ⟨rfl, rfl, hd⟩
        · exact fireDue_of_absent b _ due
        · exact hnear hd
      have hfire := fireChannel_of_due (s := popRequest s) (tag := tag) ha h hdue
      exact ⟨fun hfull => hrefuse (hfire.trans (if_pos hfull)), fun hroom => ⟨_,
        entryCreated_createEntry (s := popRequest s) ha rfl,
        hrun (hfire.trans (if_neg (Nat.not_le_of_lt hroom)))⟩⟩

/-! ## The end of a step -/

/-- Past the last step of a TRIGGERED program the jump is to the step at the loop start (R33). -/
theorem jumpToLoop_of_triggered {s : State} {c : Fin 8} {b : Binding} {f : Firing} {e : Word}
    {st : ProgStep} (hm : b.mode = .triggered)
    (hst : (s.prog b.program).steps[(s.prog b.program).loopStart]? = some st) :
    jumpToLoop s c b f e =
      s.setChan c (runsStep b.idle f (s.prog b.program).loopStart st e (s.chan c)) := by
  unfold jumpToLoop
  dsimp only
  rw [hm]
  exact beginStep_of_step hst

/-- Settles O47: by `exec_of_endsStep`, then the next step or the one at the loop start; an edge
that ends no step by `edgeEndsStep_of_other`. -/
theorem stepEndRunsTheNextStep : Obligations.StepEndRunsTheNextStep := by
  refine ⟨fun i s c b f e s1 h => ?_, fun s c o rest htxd ho h => ?_⟩
  · obtain ⟨_, _, _, hprog⟩ := keeps_of_endsStep h
    rw [exec_of_endsStep h, ← hprog]
    refine ⟨fun st hst => by rw [endStep_of_next hst], fun st n hl hm hst hn => ?_⟩
    rw [endStep_of_jump hl hn, jumpToLoop_of_triggered hm hst]
  · have hnone : edgeEndsStep { s.chan c with offers := rest } o = none :=
      edgeEndsStep_of_other h
    have htake : takeOffer (s.setChan c { s.chan c with offers := rest }) c o =
        s.setChan c { s.chan c with offers := rest } := by
      rw [takeOffer, setChan_chan_same, hnone]
    have hrest : TxdLaw (s.setChan c { s.chan c with offers := rest }) := htxd
    show execHoldUntilEdge c s = _
    rw [execHoldUntilEdge, ho]
    dsimp only
    rw [modChan_eq, htake, arbitrate_of_txdLaw hrest]

/-- Settles O48: the firing ends COMPLETE and is examined by `firingEnds_examineEnd`. -/
theorem firingEndIsExamined : Obligations.FiringEndIsExamined := by
  intro i s c b f e s1 h hl hcount hruns hm hentry
  obtain ⟨ha, hf, _, hprog⟩ := keeps_of_endsStep h
  rw [← hprog] at hl hcount
  exact ⟨_, by rw [exec_of_endsStep h, (endStep_of_last hl hcount hruns).1 hm],
    firingEnds_examineEnd ha hf hentry⟩

/-! ## Wrap points -/

/-- The pending binding, if there is one, has become active at a wrap point (R35, R80). -/
theorem applyPending_eq {s : State} {c : Fin 8} {b : Binding} (ha : (s.chan c).active = some b) :
    applyPending s c =
      (({ s with store := (if (s.chan c).pending.isSome then lowerUse s b.program
                           else s).store } : State).setChan c
        { s.chan c with active := some ((s.chan c).pending.getD b), pending := none }).withSession
        (submitAll (appliedReports c (s.chan c).pending) s.session) := by
  cases hp : (s.chan c).pending with
  | none =>
    have hch : ({ s.chan c with
        active := some ((none : Option Binding).getD b), pending := none } : Channel) =
          s.chan c := by rw [Option.getD_none, ← ha, ← hp]
    rw [applyPending_of_none hp, hch]
    exact (setChan_self s c).symm
  | some p =>
    rw [applyPending_of_pending hp, ha]
    rfl

theorem applyPending_steps (s : State) (c : Fin 8) (q : Fin 32) :
    ((applyPending s c).prog q).steps = (s.prog q).steps ∧
      ((applyPending s c).prog q).loopCount = (s.prog q).loopCount := by
  unfold applyPending
  split
  · exact ⟨rfl, rfl⟩
  · exact ⟨releaseUse_steps _ _ _, releaseUse_loopCount _ _ _⟩

section
variable {s : State} {c : Fin 8} {b b1 : Binding} {f : Firing} {target : Option Nat} {e : Word}

/-- A DRAINING channel leaves service at the wrap point (R35). -/
theorem wrapPoint_of_draining (ha : (s.chan c).active = some b)
    (hb : b1 = (s.chan c).pending.getD b) (hs : (s.chan c).state = .draining) :
    wrapPoint s c b f target e =
      (({ s with store := (if (s.chan c).pending.isSome then lowerUse s b.program
                           else s).store } : State).setChan c
        { s.chan c with
          active := some b1, pending := none, state := .off, firing := none
          output := b1.idle }).withSession
        (submitAll (appliedReports c (s.chan c).pending ++ [.channelOff c .drained])
          s.session) := by
  subst hb
  refine (if_pos hs).trans ?_
  rw [applyPending_eq ha]
  simp only [leaveService, clearFiring, modChan_eq, submit_withSession, withSession_chan,
    setChan_chan_same, withSession_setChan, setChan_setChan, withSession_session,
    withSession_withSession, submitAll_append, submitAll_cons, submitAll_nil]
  rfl

/-- With nothing pending a jump goes on from the loop start (R33, R35). -/
theorem wrapPoint_of_jump {i : Nat} {st : ProgStep} (hs : (s.chan c).state = .running)
    (hp : (s.chan c).pending = none) (hst : (s.prog b.program).steps[i]? = some st) :
    wrapPoint s c b f (some i) e = s.setChan c (runsStep b.idle f i st e (s.chan c)) := by
  refine (if_neg (by simp [hs])).trans ?_
  rw [hp]
  exact beginStep_of_step hst

/-- Under a binding just applied, and at the return to step 0, a new pass begins (R35, R80). -/
theorem wrapPoint_of_newPass {st : ProgStep} {more : List ProgStep}
    (ha : (s.chan c).active = some b) (hb : b1 = (s.chan c).pending.getD b)
    (hs : (s.chan c).state = .running) (h : (s.chan c).pending ≠ none ∨ target = none)
    (hst : (s.prog b1.program).steps = st :: more) :
    wrapPoint s c b f target e =
      (({ s with store := (if (s.chan c).pending.isSome then lowerUse s b.program
                           else s).store } : State).setChan c
        (runsStep b1.idle (startedAt none (s.prog b1.program).loopCount e) 0 st e
          { s.chan c with active := some b1, pending := none })).withSession
        (submitAll (appliedReports c (s.chan c).pending) s.session) := by
  have hpass : wrapPoint s c b f target e = startPass (applyPending s c) c b1 e := by
    refine (if_neg (by simp [hs])).trans ?_
    subst hb
    cases hp : (s.chan c).pending with
    | some p => rfl
    | none =>
      rw [h.resolve_left (not_not.mpr hp), applyPending_of_none hp]
      rfl
  obtain ⟨hsteps, hcount⟩ := applyPending_steps s c b1.program
  rw [hpass, startPass_of_steps (hsteps.trans hst), hcount, applyPending_eq ha, ← hb]
  simp only [withSession_chan, setChan_chan_same, withSession_setChan, setChan_setChan]

end

/-- Past the last step of a CONTINUOUS program a wrap point comes: at a jump with its runs counted,
or at the return to step 0 (R33, R35). -/
theorem endStep_of_wrap {s : State} {c : Fin 8} {b : Binding} {f : Firing} {e : Word}
    (hl : (s.prog b.program).steps.length ≤ f.stepIndex + 1) (hm : b.mode = .continuous) :
    (∀ n, ((s.prog b.program).loopCount = 0 ∧ n = f.loopRuns) ∨
        ((s.prog b.program).loopCount ≠ 0 ∧ f.loopRuns ≠ 0 ∧ n = f.loopRuns - 1) →
      endStep s c b f e = wrapPoint s c b { f with loopRuns := n }
        (some (s.prog b.program).loopStart) e) ∧
    ((s.prog b.program).loopCount ≠ 0 → f.loopRuns = 0 →
      endStep s c b f e = wrapPoint s c b f none e) := by
  refine ⟨fun n hn => ?_, fun h0 h1 => (endStep_of_last hl h0 h1).2 hm⟩
  rw [endStep_of_jump hl hn]
  unfold jumpToLoop
  dsimp only
  rw [hm]

/-- Whichever way the last step ends, a wrap point comes. -/
theorem exists_wrapPoint_of_endStep {s : State} {c : Fin 8} {b : Binding} {f : Firing} {e : Word}
    (hl : (s.prog b.program).steps.length ≤ f.stepIndex + 1) (hm : b.mode = .continuous) :
    ∃ g target, endStep s c b f e = wrapPoint s c b g target e := by
  obtain ⟨hjump, hreturn⟩ := endStep_of_wrap (s := s) (c := c) (e := e) hl hm
  by_cases h0 : (s.prog b.program).loopCount = 0
  · exact ⟨_, _, hjump _ (.inl ⟨h0, rfl⟩)⟩
  by_cases h1 : f.loopRuns = 0
  · exact ⟨_, _, hreturn h0 h1⟩
  · exact ⟨_, _, hjump _ (.inr ⟨h0, h1, rfl⟩)⟩

/-- Settles O49: the step that ends comes to a wrap point, and the channel's state and its pending
binding say what follows. -/
theorem passWrapsAtItsPoints : Obligations.PassWrapsAtItsPoints := by
  intro i s c b f e s1 h hl hm b1 ch store reports hb hch hstore hreports
  obtain ⟨ha, hf, hstate, hprog⟩ := keeps_of_endsStep h
  have hrep : reports = appliedReports c (s1.chan c).pending := hreports.trans rfl
  subst hch hstore hrep
  rw [exec_of_endsStep h, ← hstate]
  simp only [← hprog] at hl ⊢
  obtain ⟨hjump, hreturn⟩ := endStep_of_wrap (s := s1) (c := c) (e := e) hl hm
  refine ⟨fun hs => ?_, fun hs => ⟨fun st n hp hst hn => ?_, fun st more hnew hst => ?_⟩⟩
  · obtain ⟨g, target, hwrap⟩ := exists_wrapPoint_of_endStep (s := s1) (c := c) (e := e) hl hm
    rw [hwrap, wrapPoint_of_draining ha hb hs]
    rfl
  · rw [hjump n hn, wrapPoint_of_jump hs hp hst]
  · obtain ⟨g, target, hwrap, hcase⟩ : ∃ g target,
        endStep s1 c b f e = wrapPoint s1 c b g target e ∧
          ((s1.chan c).pending ≠ none ∨ target = none) := by
      rcases hnew with hp | ⟨h0, h1⟩
      · obtain ⟨g, target, hwrap⟩ := exists_wrapPoint_of_endStep (s := s1) (c := c) (e := e) hl hm
        exact ⟨g, target, hwrap, .inl hp⟩
      · exact ⟨f, none, hreturn h0 h1, .inr rfl⟩
    rw [hwrap, wrapPoint_of_newPass ha hb hs hcase hst]
    rfl

/-! ## Stall notices -/

/-- A stall notice without effect: nothing in progress, no LINE-bound binding or HOLD (R38, R39). -/
theorem actOnStall_of_idle {s : State} {c : Fin 8}
    (h : (s.chan c).firing = none ∨ ∃ b, (s.chan c).active = some b ∧
      (b.base = .time ∨ b.stall = .hold)) : actOnStall s c = s := by
  unfold actOnStall
  dsimp only
  split
  · next b f ha hf =>
    refine if_neg ?_
    rcases h with h | ⟨b', ha', h | h⟩
    · simp [hf] at h
    · obtain rfl : b = b' := Option.some.inj (ha.symm.trans ha')
      simp [h]
    · obtain rfl : b = b' := Option.some.inj (ha.symm.trans ha')
      simp [h]
  · rfl

/-- Under ABORT what is in progress ends: a firing with its examination, a pass with the channel OFF
(R40, R41). -/
theorem actOnStall_of_abort {s : State} {c : Fin 8} {b : Binding} {f : Firing}
    (ha : (s.chan c).active = some b) (hf : (s.chan c).firing = some f)
    (hi : (s.chan c).inService = true) (hbase : b.base = .line) (hstall : b.stall = .abort) :
    (b.mode = .triggered → actOnStall s c =
      examineEnd (endFiring s c f (chanNow s c) .abortedStall) c (chanNow s c)) ∧
    (b.mode = .continuous → actOnStall s c =
      leaveService (discardPending (clearFiring s c) c) c .stall) := by
  unfold actOnStall
  constructor
  all_goals
    intro hm
    simp only [ha, hf, hi, hbase, hstall, hm, decide_true, Bool.and_self, if_true]

/-- A pass ended by a stall leaves the channel OFF, its pending binding discarded (R41, R81). -/
theorem leaveService_clearFiring_eq {s : State} {c : Fin 8} {b : Binding}
    (ha : (s.chan c).active = some b) :
    leaveService (discardPending (clearFiring s c) c) c .stall =
      ((releaseUse s (s.chan c).pending).setChan c
        { s.chan c with
          state := .off, firing := none, pending := none, output := b.idle }).withSession
        (s.session.submit (.channelOff c .stall)) := by
  simp only [leaveService, discardPending_eq, clearFiring, modChan_eq, submit_withSession,
    setChan_chan_same, setChan_releaseUse, setChan_setChan, setChan_session, releaseUse_session]
  simp only [Channel.idleLevel, ha]

/-- Settles O51: the notice is taken, then `actOnStall` in its cases. -/
theorem stallNoticeIsActedOn : Obligations.StallNoticeIsActedOn := by
  intro s c n s1 htxd hn hs1
  have hchan : s1.chan c = { s.chan c with stallNotices := n } := by rw [hs1, setChan_chan_same]
  have hexec : exec (.stallNotice c) s = .next (arbitrate (actOnStall s1 c)) := by
    show execStallNotice c s = _
    rw [execStallNotice, if_neg (by omega), modChan_eq, hn, hs1]
    rfl
  have hidle : actOnStall s1 c = s1 → exec (.stallNotice c) s = .next s1 := fun h => by
    have htxd1 : TxdLaw s1 := by rw [hs1]; exact htxd
    rw [hexec, h, arbitrate_of_txdLaw htxd1]
  have hnow : chanNow s1 c = chanNow s c := by
    rw [hs1]
    exact chanNow_setChan_of_base rfl rfl rfl
  refine ⟨fun hf => hidle (actOnStall_of_idle (.inl (by rw [hchan]; exact hf))), ?_⟩
  intro b f ha hf
  have ha1 : (s1.chan c).active = some b := by rw [hchan]; exact ha
  have hf1 : (s1.chan c).firing = some f := by rw [hchan]; exact hf
  refine ⟨fun h => hidle (actOnStall_of_idle (.inr ⟨b, ha1, h⟩)), fun hbase hstall hi => ?_⟩
  obtain ⟨htriggered, hcontinuous⟩ := actOnStall_of_abort ha1 hf1
    (by rw [hchan]; exact hi) hbase hstall
  refine ⟨fun hm hentry => ⟨_, hexec, ?_⟩, fun hm => ?_⟩
  · rw [htriggered hm, hnow]
    exact firingEnds_examineEnd ha1 hf1 hentry
  · rw [hexec, hcontinuous hm, leaveService_clearFiring_eq ha1, hchan, hs1, setChan_releaseUse,
      setChan_setChan]
    cases (s.chan c).pending <;> rfl

end Sys2Proof.Machine

namespace Sys2Proof.Machine

/-! ## The firing queue in due order -/

/-- In a queue kept in due order insertion cuts between the entries due no later than the new one
and those due later (R51). -/
theorem insertEntry_eq_filter {now : Word} {x : Entry} {queue : List Entry}
    (h : queue.Pairwise fun a b => dueOffset now a ≤ dueOffset now b) :
    insertEntry now x queue =
      queue.filter (fun y => decide (dueOffset now y ≤ dueOffset now x)) ++ x ::
        queue.filter (fun y => decide (dueOffset now x < dueOffset now y)) := by
  induction queue with
  | nil => rfl
  | cons y rest ih =>
    obtain ⟨hy, hrest⟩ := List.pairwise_cons.mp h
    unfold insertEntry
    by_cases hyx : dueOffset now y ≤ dueOffset now x
    · simp [hyx, Int.not_lt.mpr hyx, ih hrest]
    · have hxy : dueOffset now x < dueOffset now y := Int.not_le.mp hyx
      have hlater : ∀ z ∈ rest, dueOffset now x < dueOffset now z := fun z hz =>
        Int.lt_of_lt_of_le hxy (hy z hz)
      have hnone : rest.filter (fun z => decide (dueOffset now z ≤ dueOffset now x)) = [] :=
        List.filter_eq_nil_iff.mpr fun z hz => by simpa using hlater z hz
      have hall : rest.filter (fun z => decide (dueOffset now x < dueOffset now z)) = rest :=
        List.filter_eq_self.mpr fun z hz => by simpa using hlater z hz
      simp [hyx, hxy, hnone, hall]

/-- Insertion keeps the queue in due order (R51). -/
theorem pairwise_insertEntry {now : Word} {x : Entry} {queue : List Entry}
    (h : queue.Pairwise fun a b => dueOffset now a ≤ dueOffset now b) :
    (insertEntry now x queue).Pairwise fun a b => dueOffset now a ≤ dueOffset now b := by
  rw [insertEntry_eq_filter h, List.pairwise_append, List.pairwise_cons]
  have hlater : ∀ z ∈ queue.filter (fun y => decide (dueOffset now x < dueOffset now y)),
      dueOffset now x ≤ dueOffset now z := fun z hz =>
    Int.le_of_lt (by simpa using List.of_mem_filter hz)
  refine ⟨h.filter _, ⟨hlater, h.filter _⟩, fun y hy z hz => ?_⟩
  have hyx : dueOffset now y ≤ dueOffset now x := by simpa using List.of_mem_filter hy
  rcases List.mem_cons.mp hz with rfl | hz
  · exact hyx
  · exact Int.le_trans hyx (hlater z hz)

/-- Settles O52: `insertEntry_eq_filter`, by induction on the queue, and `pairwise_insertEntry`. -/
theorem entriesStandInDueOrder : Obligations.EntriesStandInDueOrder := fun _ _ _ h =>
  ⟨insertEntry_eq_filter h, pairwise_insertEntry h⟩

/-! ## Overdue entries -/

theorem overdue_eq (now : Word) (x : Entry) :
    overdue now x = atOrAfter now (x.due + 1073741824) := rfl

/-- Settles O46: the overdue head entries go by `dropHeads_of_split`. -/
theorem overdueEntriesAreDiscarded : Obligations.OverdueEntriesAreDiscarded := by
  intro s c lost kept hq hl hk
  simp only [← overdue_eq] at hl hk
  show (lost = [] → execEntryOverdueDiscard c s = _) ∧ (lost ≠ [] → execEntryOverdueDiscard c s = _)
  unfold execEntryOverdueDiscard
  refine ⟨?_, fun hne => ?_⟩
  · rintro rfl
    have hhead : (s.chan c).queue.head?.any (overdue (chanNow s c)) = false := by
      rw [hq, List.nil_append]
      simpa [Option.any_eq_false] using hk
    rw [hhead]
    rfl
  · obtain ⟨y, more, rfl⟩ := List.exists_cons_of_ne_nil hne
    have hhead : (s.chan c).queue.head?.any (overdue (chanNow s c)) = true := by
      rw [hq, List.cons_append, List.head?_cons, Option.any_some]
      exact hl y List.mem_cons_self
    rw [if_pos hhead, dropHeads_of_split hq hl hk]
    rfl

/-! ## The head entry at its due point -/

section
variable {s : State} {c : Fin 8} {b : Binding} {x : Entry} {rest : List Entry}

/-- The channel acts on a head entry once its due point is reached: under DROP while a firing is in
progress, and in READY or DRAINING with none (R59, R60). -/
theorem headDue_iff (ha : (s.chan c).active = some b) (hq : (s.chan c).queue = x :: rest) :
    headDue s c = true ↔ atOrAfter (chanNow s c) x.due = true ∧
      (((s.chan c).firing ≠ none ∧ (s.chan c).inService = true ∧ b.overlap = .drop) ∨
        ((s.chan c).firing = none ∧
          ((s.chan c).state = .ready ∨ (s.chan c).state = .draining))) := by
  unfold headDue
  simp only [ha, hq]
  cases (s.chan c).firing <;> simp

theorem exec_headEntryDue_of_due (h : headDue s c = true) :
    exec (.headEntryDue c) s = .next (arbitrate (handleDue s c)) :=
  congrArg Host.Outcome.next (if_pos h)

theorem exec_headEntryDue_of_not_due (h : ¬ headDue s c = true) :
    exec (.headEntryDue c) s = .next s := congrArg Host.Outcome.next (if_neg h)

/-- A due head entry is left to the overlap policy while a firing is in progress (R60). -/
theorem handleDue_of_firing (ha : (s.chan c).active = some b) (hq : (s.chan c).queue = x :: rest)
    (hd : atOrAfter (chanNow s c) x.due = true) (hf : (s.chan c).firing ≠ none)
    (hi : (s.chan c).inService = true) : handleDue s c = dueWhileRunning s c b := by
  obtain ⟨f, hf⟩ := Option.ne_none_iff_exists'.mp hf
  simp only [handleDue, ha, hq, hd, hf, hi, if_true]

/-- A due head entry starts now where nothing is in progress, and the overlap policy acts on the
entries behind it (R30, R59, R60). -/
theorem handleDue_of_start {st : ProgStep} {more : List ProgStep} {started : Channel}
    (ha : (s.chan c).active = some b) (hq : (s.chan c).queue = x :: rest)
    (hd : atOrAfter (chanNow s c) x.due = true) (hf : (s.chan c).firing = none)
    (hs : (s.chan c).state = .ready ∨ (s.chan c).state = .draining)
    (hsteps : (s.prog b.program).steps = st :: more)
    (hst : started = runsStep b.idle
      (startedAt (some x) (s.prog b.program).loopCount (chanNow s c)) 0 st (chanNow s c)
      { s.chan c with
        state := if (s.chan c).state = .draining then .draining else .running
        queue := rest }) :
    handleDue s c = dueWhileRunning (s.setChan c started) c b := by
  have hstart : handleDue s c = dueWhileRunning
      (startFiring (s.modChan c fun ch => { ch with queue := rest }) c b x (chanNow s c)) c b := by
    simp only [handleDue, ha, hq, hd, hf, hs, if_true]
  rw [hstart, startFiring_of_steps (s := s.modChan c _) hsteps, hst]
  simp only [modChan_eq, setChan_chan_same, setChan_setChan, setChan_prog]

end

/-- Settles O45: `headDue_iff` says when the channel acts, `handleDue_of_firing` and
`handleDue_of_start` what it does, and `dueWhileRunning_of_split` what the overlap policy does. -/
theorem headEntryStartsOrWaits : Obligations.HeadEntryStartsOrWaits := by
  rintro s c b x rest now htxd ha hq rfl
  have hdue := headDue_iff ha hq
  refine ⟨fun hd => exec_headEntryDue_of_not_due (by simp [hdue, hd]), fun hd =>
    ⟨fun hf ho => exec_headEntryDue_of_not_due (by simp [hdue, hf, ho]), ?_, ?_⟩⟩
  · intro lost kept hf hi ho hsplit hl hk
    rw [exec_headEntryDue_of_due (hdue.mpr ⟨hd, .inl ⟨hf, hi, ho⟩⟩),
      handleDue_of_firing ha hq hd hf hi,
      (dueWhileRunning_of_split (hq.trans hsplit) hl hk).2 ho]
    rfl
  · intro st more started hf hs hsteps hst
    rw [exec_headEntryDue_of_due (hdue.mpr ⟨hd, .inr ⟨hf, hs⟩⟩),
      handleDue_of_start ha hq hd hf hs hsteps hst]
    have hnow : chanNow (s.setChan c started) c = chanNow s c :=
      chanNow_setChan_of_base (by rw [hst]; rfl) (by rw [hst]; rfl) (by rw [hst]; rfl)
    refine ⟨fun ho => ?_, fun lost kept ho hsplit hl hk => ?_⟩
    · have hheld : dueWhileRunning (s.setChan c started) c b = s.setChan c started := by
        unfold dueWhileRunning
        rw [ho]
      have htxd' : TxdLaw (s.setChan c started) := htxd
      rw [hheld, arbitrate_of_txdLaw htxd']
    · have hqueue : ((s.setChan c started).chan c).queue = lost ++ kept := by
        rw [setChan_chan_same, hst, ← hsplit]
        rfl
      have hmissed : started.missed = (s.chan c).missed := by rw [hst]; rfl
      rw [(dueWhileRunning_of_split hqueue (by rw [hnow]; exact hl) (by rw [hnow]; exact hk)).2 ho,
        setChan_chan_same, setChan_setChan, hmissed]
      rfl

/-! ## Route triggers -/

/-- The MISSED of a route trigger that is refused (R55, R71). -/
def refusedReport (c : Fin 8) (t : Trigger) (cause : MissedCause) (trigger : Word)
    (due : Option Word) : MissedReport :=
  { channel := c, cause := cause, count := 1, number := none
    source := .route t.route t.input t.edge, trigger := trigger, due := due }

section
variable {s : State} {c : Fin 8} {b : Binding} {t : Trigger} {cause : MissedCause}

theorem submitMissed_refusedReport (s : State) (c : Fin 8) (t : Trigger) (cause : MissedCause)
    (trigger : Word) (due : Option Word) :
    submitMissed s (refusedReport c t cause trigger due) =
      (s.setChan c { s.chan c with missed := (s.chan c).missed + 1 }).withSession
        (s.session.submit (.missed (refusedReport c t cause trigger due))) := rfl

/-- A refused trigger is told of with its point and the due point it would have had (R55, R71). -/
theorem refuseTrigger_of_active (ha : (s.chan c).active = some b) :
    refuseTrigger s c t cause =
      submitMissed s (refusedReport c t cause (pointOfStamp (s.chan c) t.stamp)
        (if b.mode = .triggered then some (dueOf b (pointOfStamp (s.chan c) t.stamp))
         else none)) := by
  unfold refuseTrigger refusedReport
  simp only [ha]
  cases b.mode <;> rfl

/-- Without a binding the trigger point told is a free value (log 10). -/
theorem refuseTrigger_of_unbound (ha : (s.chan c).active = none) :
    refuseTrigger s c t cause =
      submitMissed { s with freeCount := s.freeCount + 1 }
        (refusedReport c t cause (Config.freeWord s.freeCount) none) := by
  unfold refuseTrigger refusedReport
  simp only [ha]

theorem takeTrigger_of_off (hs : (s.chan c).state = .off) : takeTrigger s c t = s := by
  simp only [takeTrigger, hs]

theorem takeTrigger_of_forced (hs : (s.chan c).state = .forced) :
    takeTrigger s c t = refuseTrigger s c t .cutoff := by
  simp only [takeTrigger, hs]

theorem takeTrigger_of_draining (hs : (s.chan c).state = .draining) :
    takeTrigger s c t = refuseTrigger s c t .stopping := by
  simp only [takeTrigger, hs]

theorem takeTrigger_of_continuous (hs : (s.chan c).state = .running)
    (ha : (s.chan c).active = some b) (hm : b.mode = .continuous) :
    takeTrigger s c t = refuseTrigger s c t .mode := by
  simp only [takeTrigger, hs, ha, hm]

/-- A TRIGGERED channel in READY or RUNNING creates an entry where its queue has room (R54, R55). -/
theorem takeTrigger_of_triggered (hs : (s.chan c).state = .ready ∨ (s.chan c).state = .running)
    (ha : (s.chan c).active = some b) (hm : b.mode = .triggered) :
    takeTrigger s c t =
      if 16 ≤ (s.chan c).queue.length then refuseTrigger s c t .queueFull
      else createEntry s c (.route t.route t.input t.edge) (pointOfStamp (s.chan c) t.stamp)
        (dueOf b (pointOfStamp (s.chan c) t.stamp)) := by
  rcases hs with hs | hs
  all_goals
    simp only [takeTrigger, hs, ha, hm]
    rfl

theorem exec_routeTrigger_of_triggers {rest : List Trigger}
    (h : (s.chan c).triggers = t :: rest) :
    exec (.routeTrigger c) s =
      .next (arbitrate
        (takeTrigger (s.setChan c { s.chan c with triggers := rest }) c t)) := by
  show execRouteTrigger c s = _
  unfold execRouteTrigger
  rw [h]
  rfl

end

/-- Settles O50: the oldest trigger is taken, then `takeTrigger` by the channel's state; an entry by
`entryCreated_createEntry`. -/
theorem routeTriggerIsTakenByState : Obligations.RouteTriggerIsTakenByState := by
  intro s c x rest p u htxd hx hp hu
  have hchan : (s.setChan c u).chan c = u := setChan_chan_same s c u
  have hpoint : pointOfStamp u x.stamp = p := by rw [hp, hu]; rfl
  have hstate : u.state = (s.chan c).state := by rw [hu]
  have hactive : u.active = (s.chan c).active := by rw [hu]
  have hexec : ∀ {t}, takeTrigger (s.setChan c u) c x = t →
      exec (.routeTrigger c) s = .next (arbitrate t) := fun h => by
    rw [exec_routeTrigger_of_triggers hx, ← hu, h]
  refine ⟨fun hb => ?_, fun hb hmark => ?_, fun hb hmark => ?_, fun hs => ?_, ?_⟩
  · simp [hp, pointOfStamp, hb]
  · simp [hp, pointOfStamp, hb, lineInCoords, hmark]
  · simp [hp, pointOfStamp, hb, lineInCoords, hmark]
  · have htxd' : TxdLaw (s.setChan c u) := htxd
    rw [hexec (takeTrigger_of_off (by rw [hchan, hstate, hs])), arbitrate_of_txdLaw htxd']
  rintro refused rfl
  refine ⟨fun hs hnone => ⟨Config.freeWord s.freeCount, ?_⟩, fun b ha due hdue => ?_⟩
  · have hfree : ({ s.setChan c u with freeCount := s.freeCount + 1 } : State) =
        ({ s with freeCount := s.freeCount + 1 } : State).setChan c u := rfl
    rw [hexec (takeTrigger_of_forced (by rw [hchan, hstate, hs])),
      refuseTrigger_of_unbound (by rw [hchan, hactive, hnone]), setChan_freeCount, hfree,
      submitMissed_refusedReport, setChan_chan_same, setChan_setChan]
    rfl
  · have ha' : ((s.setChan c u).chan c).active = some b := by rw [hchan, hactive, ha]
    have hrefuse : ∀ {cause}, takeTrigger (s.setChan c u) c x =
        refuseTrigger (s.setChan c u) c x cause →
        exec (.routeTrigger c) s = .next (arbitrate
          ((s.setChan c { u with missed := u.missed + 1 }).withSession
            (s.session.submit (.missed (refusedReport c x cause p due))))) := fun h => by
      rw [hexec h, refuseTrigger_of_active ha', submitMissed_refusedReport, hchan, hpoint, hdue,
        setChan_setChan]
      rfl
    have hs' : ((s.setChan c u).chan c).state = (s.chan c).state := by rw [hchan, hstate]
    refine ⟨fun hs => ?_, fun hs => ?_, fun hs hm => ?_, fun hs hm hfull => ?_,
      fun hs hm hroom entry hentry => ?_⟩
    · exact hrefuse (takeTrigger_of_forced (hs'.trans hs))
    · exact hrefuse (takeTrigger_of_draining (hs'.trans hs))
    · exact hrefuse (takeTrigger_of_continuous (hs'.trans hs) ha' hm)
    · refine hrefuse ((takeTrigger_of_triggered (by rw [hs']; exact hs) ha' hm).trans (if_pos ?_))
      rw [hchan]
      exact hfull
    · refine ⟨createEntry (s.setChan c u) c entry.source entry.trigger entry.due, hexec ?_,
        entryCreated_createEntry ha' (by rw [hchan, hentry])⟩
      rw [takeTrigger_of_triggered (by rw [hs']; exact hs) ha' hm, hchan, hpoint, hentry]
      exact if_neg (Nat.not_le_of_lt hroom)

/-! ## Presets -/

/-- Now on a LINE-bound channel is the line base less the offsets still handed to it (R69, R98). -/
theorem chanNow_of_presetsAgree {s : State} {c : Fin 8} (hb : (s.chan c).lineBound = true)
    (h : PresetsAgree s.line (s.chan c)) (hlen : (s.chan c).presets.length < 65536) :
    chanNow s c = s.line.lineBase - (s.chan c).presets.sum := by
  obtain ⟨hmade, hsum⟩ := h hb
  show pointOfStamp (s.chan c) (stampNow s) = _
  simp only [pointOfStamp, hb, if_true, lineInCoords, stampNow, ← hmade, ← hsum]
  cases hp : (s.chan c).presets with
  | nil => simp
  | cons k rest =>
    have hleft : BitVec.ofNat 16 (k :: rest).length ≠ 0 := by
      rw [hp] at hlen
      simp [← BitVec.toNat_inj] at hlen ⊢
      omega
    rw [if_neg (by simpa using hleft)]
    ring

/-- A preset that is taken moves from those handed over to those taken (R69, R98). -/
theorem PresetsAgree.takePreset {l : LineUnit} {ch : Channel} {k : Word} {rest : List Word}
    (h : PresetsAgree l ch) (hp : ch.presets = k :: rest) (hb : ch.lineBound = true) :
    PresetsAgree l (takePreset k { ch with presets := rest }) := by
  obtain ⟨hmade, hsum⟩ := h hb
  rw [takePreset_of_bound (ch := { ch with presets := rest }) hb]
  refine fun _ => ⟨?_, ?_⟩
  · rw [← hmade, hp, List.length_cons, Nat.add_comm, BitVec.ofNat_add, ← BitVec.add_assoc]
    rfl
  · rw [← hsum, hp, List.sum_cons, ← BitVec.add_assoc]

/-- The channel's now moves by the offset it takes, and reaches the line base with the last preset
handed to it (R69). -/
theorem chanNow_takePreset {s : State} {c : Fin 8} {k : Word} {rest : List Word}
    (hp : (s.chan c).presets = k :: rest) (hb : (s.chan c).lineBound = true)
    (h : PresetLaw s) (hlen : rest.length + 1 < 65536) :
    chanNow (s.setChan c (takePreset k { s.chan c with presets := rest })) c = chanNow s c + k ∧
      (rest = [] → chanNow (s.setChan c (takePreset k { s.chan c with presets := rest })) c =
        s.line.lineBase) := by
  have hagree : PresetsAgree s.line (s.chan c) := h c
  have hmoved := takePreset_of_bound (k := k) (ch := { s.chan c with presets := rest }) hb
  have hafter : chanNow (s.setChan c (takePreset k { s.chan c with presets := rest })) c =
      s.line.lineBase - rest.sum := by
    rw [chanNow_of_presetsAgree (by rw [setChan_chan_same, hmoved]; exact hb)
      (by rw [setChan_chan_same]; exact hagree.takePreset hp hb)
      (by rw [setChan_chan_same, hmoved]; exact Nat.lt_of_succ_lt hlen),
      setChan_chan_same, hmoved]
    rfl
  have hbefore : chanNow s c = s.line.lineBase - (k :: rest).sum := by
    rw [chanNow_of_presetsAgree hb hagree (by rw [hp]; exact hlen), hp]
  refine ⟨?_, ?_⟩
  · rw [hafter, hbefore, List.sum_cons]
    ring
  · rintro rfl
    rw [hafter]
    simp

/-- Settles O23: `takePreset_of_bound` and `takePreset_of_free` move the points, and
`chanNow_takePreset` moves the channel's now with them. -/
theorem presetMovesPointsWithTheLine : Obligations.PresetMovesPointsWithTheLine := by
  intro s c k rest hp
  have hexec : exec (.linePresetTaken c) s =
      .next (s.setChan c (takePreset k { s.chan c with presets := rest })) := by
    show execLinePresetTaken c s = _
    unfold execLinePresetTaken
    rw [hp]
    rfl
  refine ⟨_, hexec, ?_⟩
  cases hb : (s.chan c).lineBound with
  | false =>
    rw [takePreset_of_free (ch := { s.chan c with presets := rest }) hb]
    refine ⟨rfl, rfl, rfl, fun _ => ⟨rfl, rfl⟩, fun h => absurd h (by decide), ?_⟩
    exact ⟨rfl, rfl, rfl, rfl, rfl, rfl, rfl, rfl, rfl, rfl, rfl, rfl, rfl, rfl⟩
  | true =>
    have hnow := chanNow_takePreset hp hb
    rw [takePreset_of_bound (ch := { s.chan c with presets := rest }) hb] at hnow ⊢
    refine ⟨rfl, rfl, rfl, fun h => absurd h (by decide), fun _ => ⟨rfl, rfl, hnow⟩, ?_⟩
    exact ⟨rfl, rfl, rfl, rfl, rfl, rfl, rfl, rfl, rfl, rfl, rfl, rfl, rfl, rfl⟩

end Sys2Proof.Machine

namespace Sys2Proof.Machine

/-! ## BIND on a channel in service and on a FORCED one -/

section
variable {s t : State} {r : Request} {c : Fin 8} {result : Result} {fields : List Byte}

theorem answers_bind : Answers .bind answerBind := ⟨_, rfl, fun _ => rfl⟩

/-- A BIND that carries a binding executes what its rule says of that binding (R73). -/
theorem Executed.of_bindProgram {b : Binding} (hs : Serves s r) (hk : r.kind = 0x20)
    (ho : s.session.state = .opened) (hp : r.payload = byteOf c.val :: b.bytes)
    (h : bindProgram (popRequest s) c b = ({ result := result, fields := fields }, t)) :
    Executed .bind s r result fields t :=
  answers_bind.executed hs (congrArg some hk.symm)
    (hp ▸ (answerBind_of_bytes (s := popRequest s) b ho).trans h)

/-- A BIND with program id 0 executes what its rule says of the channel (R75, R77). -/
theorem Executed.of_bindNothing {rest : List Byte} (hs : Serves s r) (hk : r.kind = 0x20)
    (ho : s.session.state = .opened) (hp : r.payload = byteOf c.val :: 0 :: rest)
    (hl : rest.length = 11)
    (h : bindNothing (popRequest s) c = ({ result := result, fields := fields }, t)) :
    Executed .bind s r result fields t :=
  answers_bind.executed hs (congrArg some hk.symm)
    (hp ▸ (answerBind_of_zero (s := popRequest s) ho hl).trans h)

end

section
variable {s : State} {c : Fin 8} {a b : Binding}

/-! ### The checks of BIND in their order (R73) -/

theorem bindProgram_of_unsealed (h : (s.prog b.program).state ≠ .sealed) :
    bindProgram s c b = (bindAnswer s c .notFound, s) := if_pos h

theorem bindProgram_of_endless (h : (s.prog b.program).state = .sealed)
    (hm : b.mode = .triggered) (hl : (s.prog b.program).loopCount = 0) :
    bindProgram s c b = (bindAnswer s c .endless, s) :=
  (if_neg (not_not.mpr h)).trans (if_pos ⟨hm, hl⟩)

theorem bindProgram_of_forced (h : (s.prog b.program).state = .sealed)
    (hn : ¬ (b.mode = .triggered ∧ (s.prog b.program).loopCount = 0))
    (hf : (s.chan c).state = .forced) :
    bindProgram s c b = (bindAnswer s c .cutoffActive, s) :=
  (if_neg (not_not.mpr h)).trans ((if_neg hn).trans (if_pos hf))

/-- In service a BIND that has passed the program's checks is judged by base and mode alone, then
staged (R73 check 5, R76). -/
theorem bindProgram_of_service (h : (s.prog b.program).state = .sealed)
    (hn : ¬ (b.mode = .triggered ∧ (s.prog b.program).loopCount = 0))
    (hf : (s.chan c).state ≠ .forced) (hoff : (s.chan c).state ≠ .off) :
    bindProgram s c b =
      if keepsBase (s.chan c).active b = true then
        (bindAnswer (stageBinding s c b) c .ok, stageBinding s c b)
      else (bindAnswer s c .baseChange, s) := by
  refine (if_neg (not_not.mpr h)).trans ((if_neg hn).trans ((if_neg hf).trans
    ((if_neg hoff).trans ?_)))
  cases keepsBase (s.chan c).active b <;> rfl

theorem bindNothing_of_forced (hf : (s.chan c).state = .forced) :
    bindNothing s c = (bindAnswer s c .cutoffActive, s) := by
  rw [bindNothing, hf]

theorem bindNothing_of_service (hf : (s.chan c).state ≠ .forced) (hoff : (s.chan c).state ≠ .off) :
    bindNothing s c = (bindAnswer (discardPending s c) c .ok, discardPending s c) := by
  unfold bindNothing
  split
  · next h => exact absurd h hf
  · next h => exact absurd h hoff
  · rfl

/-! ### Staging -/

/-- A binding staged behind the firing or pass in progress takes the place of the pending one
(R76). -/
theorem stageBinding_of_waiting (h : ¬ appliesAtOnce (s.chan c) b = true) :
    stageBinding s c b =
      (releaseUse (raiseUse s b.program) (s.chan c).pending).setChan c
        { s.chan c with pending := some b } :=
  (if_neg h).trans (by rw [modChan_eq, releaseUse_chan, raiseUse_chan])

/-- A binding applied in the request takes the place of the active one, and the output goes to its
idle level (R76, R78, R79, R80). -/
theorem stageBinding_of_atOnce (h : appliesAtOnce (s.chan c) b = true)
    (ha : (s.chan c).active = some a) (hp : (s.chan c).pending = none) :
    stageBinding s c b =
      submit ((lowerUse (raiseUse s b.program) a.program).setChan c
          { s.chan c with active := some b, output := b.idle })
        (.bindingApplied c b.program) := by
  have happlied : applyPending ((releaseUse (raiseUse s b.program) none).modChan c fun ch =>
      { ch with pending := some b }) c =
        submit ((lowerUse (raiseUse s b.program) a.program).setChan c
            { s.chan c with active := some b, pending := none })
          (.bindingApplied c b.program) := by
    rw [applyPending_of_pending (b := b) (by rw [modChan_chan_same]), modChan_chan_same,
      releaseUse_chan, raiseUse_chan, ha, modChan_eq, setChan_releaseUse, setChan_setChan]
    rfl
  refine (if_pos h).trans ?_
  rw [hp, happlied, modChan_eq, submit_withSession, withSession_chan, setChan_chan_same,
    withSession_setChan, setChan_setChan, ← hp]
  rfl

/-- Some preset count and offset sum agree with a channel record, so that what its law says in
service may be read from `LawfulChannel`. -/
theorem exists_lawfulChannel {ch : Channel} (h : ChannelLaw ch) : ∃ l, LawfulChannel l ch :=
  ⟨{ LineUnit.init with
      presetsMade := ch.presetsTaken + BitVec.ofNat 16 ch.presets.length
      offsetSum := ch.coords + ch.presets.sum }, h, fun _ => ⟨rfl, rfl⟩⟩

/-- In service a staged binding is applied in the request exactly where no firing or pass is in
progress (R76, R79). -/
theorem appliesAtOnce_iff {ch : Channel} (h : ChannelLaw ch) (hf : ch.state ≠ .forced)
    (hoff : ch.state ≠ .off) (hb : keepsBase ch.active b = true) :
    appliesAtOnce ch b = true ↔ ch.firing = none := by
  obtain ⟨l, hlaw⟩ := exists_lawfulChannel h
  refine ⟨fun hat => (hlaw.firing_of_appliesAtOnce hat).2, fun hfiring => ?_⟩
  by_contra hat
  obtain ⟨f, hsome⟩ := hlaw.isSome_of_not_appliesAtOnce hoff hf hb hat
  exact Option.some_ne_none f (hsome.symm.trans hfiring)

/-- A binding is pending only behind a firing or pass in progress (R76). -/
theorem pending_eq_none {ch : Channel} (h : ChannelLaw ch) (hf : ch.firing = none) :
    ch.pending = none := by
  obtain ⟨_, _, _, hpending, _⟩ := h
  rw [Option.eq_none_iff_forall_not_mem]
  intro p hp
  simpa [hf] using (hpending p hp).1

end

/-- Settles O15: BIND with program id 0, the checks in their order, and by `appliesAtOnce_iff` the
carried binding waiting or applied. -/
theorem bindStagesInService : Obligations.BindStagesInService := by
  intro s r c hs hk ho hlaw hst
  have hforced : (s.chan c).state ≠ .forced := fun h => by simp [Channel.inService, h] at hst
  have hoff : (s.chan c).state ≠ .off := fun h => by simp [Channel.inService, h] at hst
  refine ⟨fun rest hp hl => .of_bindNothing hs hk ho hp hl ?_, fun a b ha hp => ?_⟩
  · rw [bindNothing_of_service (s := popRequest s) hforced hoff, discardPending_eq, bindAnswer,
      setChan_chan_same]
    rfl
  have hrefused : ∀ result, bindAnswer (popRequest s) c result =
      { result := result
        fields := [(s.chan c).state.code, byteOf (a.program.val + 1),
          bindingProgram (s.chan c).pending] } := fun result => by
    rw [bindAnswer, popRequest_chan, ha]
    rfl
  refine ⟨fun he => .of_bindProgram hs hk ho hp ?_, fun he hm hl => .of_bindProgram hs hk ho hp ?_,
    fun he hn => ⟨fun hne => .of_bindProgram hs hk ho hp ?_, fun hbase hmode => ?_⟩⟩
  · rw [bindProgram_of_unsealed (s := popRequest s) he, hrefused]
  · rw [bindProgram_of_endless (s := popRequest s) he hm hl, hrefused]
  · rw [bindProgram_of_service (s := popRequest s) he hn hforced hoff, if_neg, hrefused]
    rw [popRequest_chan, ha]
    simpa [keepsBase, or_iff_not_imp_left] using hne
  have hkeeps : keepsBase (s.chan c).active b = true := by simp [keepsBase, ha, hbase, hmode]
  have hstages := (bindProgram_of_service (s := popRequest s) he hn hforced hoff).trans
    (if_pos hkeeps)
  have honce := appliesAtOnce_iff hlaw hforced hoff hkeeps
  refine ⟨fun hfiring => .of_bindProgram hs hk ho hp ?_,
    fun hfiring => .of_bindProgram hs hk ho hp ?_⟩
  · rw [hstages, stageBinding_of_waiting (s := popRequest s) (hfiring ∘ honce.mp), bindAnswer,
      setChan_chan_same, popRequest_chan, ha]
    rfl
  · have hpending := pending_eq_none hlaw hfiring
    rw [hstages, stageBinding_of_atOnce (s := popRequest s) (honce.mpr hfiring) ha hpending,
      bindAnswer, submit_withSession, withSession_chan, setChan_chan_same, popRequest_chan,
      hpending]
    rfl

/-! ## Requests to a FORCED channel -/

theorem namesChannel_byteOf (c : Fin 8) : NamesChannel (byteOf c.val) c := by revert c; decide

theorem answerFire_of_forced {s : State} {c : Fin 8} {rest : List Byte}
    (ho : s.session.state = .opened) (hl : rest.length = 7) (hf : (s.chan c).state = .forced) :
    answerFire s (byteOf c.val :: rest) = (fireRefused s c .cutoffActive, s) :=
  match rest, hl with
  | [_, _, _, _, _, _, _], _ => by
    rw [answerFire, inSession_of_opened ho, channelOf_byteOf]
    exact fireChannel_of_forced hf

/-- The fields of SET_CHANNEL_OPTIONS are read back whole (R137, section 10.4). -/
theorem answerSetChannelOptions_of_fields {s : State} {c : Fin 8} {member : Bool} {safe : Level}
    (ho : s.session.state = .opened) :
    answerSetChannelOptions s [byteOf c.val, boolCode member, levelCode safe] =
      setOptions s c member safe := by
  rw [answerSetChannelOptions, inSession_of_opened ho, channelOf_byteOf, boolOf_code, levelOf_code]

/-- Out of OFF the options stay, and the refusal tells whether the latch forbids membership
(R137). -/
theorem setOptions_of_not_off {s : State} {c : Fin 8} {member : Bool} {safe : Level}
    (h : (s.chan c).state ≠ .off) :
    setOptions s c member safe =
      (optionsAnswer s c
        (if member = true ∧ s.cutoff.latch = .tripped then .cutoffActive else .state), s) := by
  by_cases hm : member = true ∧ s.cutoff.latch = .tripped
  · rw [if_pos hm]
    exact if_pos hm
  · rw [if_neg hm]
    exact (if_neg hm).trans (if_pos h)

/-- Settles O20: each request by its own check for a FORCED channel. -/
theorem forcedChannelRefuses : Obligations.ForcedChannelRefuses := by
  intro s r c hs ho hf
  have hc := namesChannel_byteOf c
  have hstate : ∀ result, stateAnswer (popRequest s) c result =
      { result := result, fields := [4] } := fun result => by
    rw [stateAnswer, popRequest_chan, hf]
    rfl
  have hbind : ∀ result, bindAnswer (popRequest s) c result =
      { result := result
        fields := [4, bindingProgram (s.chan c).active, bindingProgram (s.chan c).pending] } :=
    fun result => by
      rw [bindAnswer, popRequest_chan, hf]
      rfl
  refine ⟨fun hm hl hp hk => ?enable, fun hp hk => ?stop, fun hp hk => ?halt,
    fun hk b hp he hn => .of_bindProgram hs hk ho hp ?bind,
    fun hk rest hp hl => .of_bindNothing hs hk ho hp hl ?unbind,
    fun hk rest hp hl => ?fire, fun hk member safe hp => ?options⟩
  case enable =>
    refine .of_channel ⟨_, rfl, fun _ => rfl⟩ hs (congrArg some hk.symm) ho hp hc ?_
    rw [enableChannel_of_trippedMember (s := popRequest s) hm hl, hstate]
  case stop =>
    refine .of_channel ⟨_, rfl, fun _ => rfl⟩ hs (congrArg some hk.symm) ho hp hc ?_
    rw [stopChannel, popRequest_chan, hf]
    exact congrArg (·, popRequest s) (hstate _)
  case halt =>
    refine .of_channel ⟨_, rfl, fun _ => rfl⟩ hs (congrArg some hk.symm) ho hp hc ?_
    exact (if_pos hf).trans (congrArg (·, popRequest s) (hstate _))
  case bind => rw [bindProgram_of_forced (s := popRequest s) he hn hf, hbind]
  case unbind => rw [bindNothing_of_forced (s := popRequest s) hf, hbind]
  case fire =>
    have hi : Answers .fire answerFire := ⟨_, rfl, fun _ => rfl⟩
    exact hi.executed hs (congrArg some hk.symm)
      (hp ▸ answerFire_of_forced (s := popRequest s) ho hl hf)
  case options =>
    have hi : Answers .setChannelOptions answerSetChannelOptions := ⟨_, rfl, fun _ => rfl⟩
    have hoff : (s.chan c).state ≠ .off := by rw [hf]; decide
    refine hi.executed hs (congrArg some hk.symm) (hp ▸
      (answerSetChannelOptions_of_fields (s := popRequest s) ho).trans ?_)
    rw [setOptions_of_not_off (s := popRequest s) hoff, optionsAnswer, popRequest_chan, hf]
    rfl

end Sys2Proof.Machine

namespace Sys2Proof.Machine

/-! ## What the laws of the line unit and of the capture unit read -/

/-- All that the laws of the line unit and of the capture unit read of a state: the two units and
the session state. -/
def unitView (s : State) : LineUnit × Capture × SessionState :=
  (s.line, s.capture, s.session.state)

theorem unitView_eq_iff {s t : State} :
    unitView t = unitView s ↔ t.line = s.line ∧ t.capture = s.capture ∧
      t.session.state = s.session.state := by simp [unitView]

/-- From `s` to `t` the line unit keeps its laws, and the capture unit keeps its own. -/
def UnitsKept (s t : State) : Prop :=
  (LineLaw s.line → LineLaw t.line) ∧ (CaptureLaw s → CaptureLaw t)

theorem UnitsKept.refl (s : State) : UnitsKept s s := ⟨id, id⟩

theorem UnitsKept.trans {s t u : State} (h : UnitsKept s t) (h' : UnitsKept t u) :
    UnitsKept s u := ⟨h'.1 ∘ h.1, h'.2 ∘ h.2⟩

theorem CaptureLaw.log {s : State} (h : CaptureLaw s) : LogLaw s.capture := h.1

theorem CaptureLaw.input {s : State} (h : CaptureLaw s) (i : Fin 4) : InputLaw (s.input i) := by
  obtain ⟨_, _, hinput, _⟩ := h
  exact hinput i

theorem CaptureLaw.streaming_of_closed {s : State} (h : CaptureLaw s)
    (hc : s.session.state = .closed) : s.capture.streaming = false := by
  obtain ⟨_, _, _, hstream⟩ := h
  exact hstream hc

/-- The capture unit's laws where its log alone has moved. -/
theorem CaptureLaw.of_log {s t : State} (hs : CaptureLaw s) (hlog : LogLaw t.capture)
    (hinputs : t.capture.inputs = s.capture.inputs)
    (hroutes : t.capture.routes = s.capture.routes)
    (hstream : t.session.state = .closed → t.capture.streaming = false) : CaptureLaw t := by
  obtain ⟨_, hroute, hinput, _⟩ := hs
  have hr : ∀ id, t.route id = s.route id := fun id => by simp only [State.route, hroutes]
  have hi : ∀ i, t.input i = s.input i := fun i => by simp only [State.input, hinputs]
  exact ⟨hlog, by simpa only [RouteLaw, hr] using hroute, fun i => hi i ▸ hinput i, hstream⟩

/-- A move of the session or of the streaming setting alone. -/
theorem CaptureLaw.of_streaming {s t : State} (hs : CaptureLaw s)
    (hcapture : t.capture = { s.capture with streaming := t.capture.streaming })
    (hstream : t.session.state = .closed → t.capture.streaming = false) : CaptureLaw t := by
  refine hs.of_log ?_ (by rw [hcapture]) (by rw [hcapture]) hstream
  rw [hcapture]
  exact hs.log

/-- The line unit moves, and the capture unit and the session state stay. -/
theorem UnitsKept.of_line {s t : State} (hcapture : t.capture = s.capture)
    (hsession : t.session.state = s.session.state) (h : LineLaw s.line → LineLaw t.line) :
    UnitsKept s t :=
  ⟨h, fun hs => hs.of_streaming (by rw [hcapture]) fun hc => by
    rw [hcapture]
    exact hs.streaming_of_closed (hsession.symm.trans hc)⟩

theorem UnitsKept.of_capture {s t : State} (hline : t.line = s.line)
    (h : CaptureLaw s → CaptureLaw t) : UnitsKept s t := ⟨fun hs => hline ▸ hs, h⟩

/-- The laws read nothing but the view. -/
theorem UnitsKept.of_view {s t : State} (h : unitView t = unitView s) : UnitsKept s t := by
  obtain ⟨hline, hcapture, hsession⟩ := unitView_eq_iff.mp h
  exact .of_line hcapture hsession fun hs => hline ▸ hs

theorem UnitsKept.then_view {s t u : State} (h : UnitsKept s t) (hv : unitView u = unitView t) :
    UnitsKept s u := h.trans (.of_view hv)

/-! ## The view an operation leaves as it was -/

/-! ### The channel engine -/

@[simp] theorem unitView_setChan (s : State) (c : Fin 8) (ch : Channel) :
    unitView (s.setChan c ch) = unitView s := rfl

@[simp] theorem unitView_modChan (s : State) (c : Fin 8) (f : Channel → Channel) :
    unitView (s.modChan c f) = unitView s := rfl

@[simp] theorem unitView_raiseUse (s : State) (q : Fin 32) :
    unitView (raiseUse s q) = unitView s := rfl

@[simp] theorem unitView_releaseUse (s : State) (b : Option Binding) :
    unitView (releaseUse s b) = unitView s := by simp [unitView]

@[simp] theorem unitView_submit (s : State) (b : ReportBody) :
    unitView (submit s b) = unitView s := by simp [unitView]

theorem unitView_foldl {α : Type} (f : State → α → State) (l : List α)
    (h : ∀ s a, unitView (f s a) = unitView s) (s : State) :
    unitView (l.foldl f s) = unitView s := by
  induction l generalizing s with
  | nil => rfl
  | cons a l ih => rw [List.foldl_cons, ih, h]

@[simp] theorem unitView_submitMissed (s : State) (r : MissedReport) :
    unitView (submitMissed s r) = unitView s := by simp [submitMissed]

@[simp] theorem unitView_dropHeads (s : State) (c : Fin 8) (cause : MissedCause)
    (p : Entry → Bool) : unitView (dropHeads s c cause p) = unitView s := by
  unfold dropHeads
  rw [unitView_foldl _ _ fun s e => by simp [loseEntry]]
  simp

@[simp] theorem unitView_flushQueue (s : State) (c : Fin 8) (cause : MissedCause) :
    unitView (flushQueue s c cause) = unitView s := by
  unfold flushQueue
  split <;> simp

@[simp] theorem unitView_beginStep (s : State) (c : Fin 8) (b : Binding) (f : Firing) (i : Nat)
    (p : Word) : unitView (beginStep s c b f i p) = unitView s := rfl

@[simp] theorem unitView_startFiring (s : State) (c : Fin 8) (b : Binding) (e : Entry) (p : Word) :
    unitView (startFiring s c b e p) = unitView s := rfl

@[simp] theorem unitView_startPass (s : State) (c : Fin 8) (b : Binding) (p : Word) :
    unitView (startPass s c b p) = unitView s := rfl

@[simp] theorem unitView_clearFiring (s : State) (c : Fin 8) :
    unitView (clearFiring s c) = unitView s := rfl

@[simp] theorem unitView_endFiring (s : State) (c : Fin 8) (f : Firing) (e : Word)
    (o : FiringOutcome) : unitView (endFiring s c f e o) = unitView s := by
  unfold endFiring
  split <;> simp

@[simp] theorem unitView_abortFiring (s : State) (c : Fin 8) (o : FiringOutcome) :
    unitView (abortFiring s c o) = unitView s := by
  unfold abortFiring
  split <;> simp

@[simp] theorem unitView_discardPending (s : State) (c : Fin 8) :
    unitView (discardPending s c) = unitView s := by simp [discardPending]

@[simp] theorem unitView_applyPending (s : State) (c : Fin 8) :
    unitView (applyPending s c) = unitView s := by
  unfold applyPending
  split <;> simp

@[simp] theorem unitView_leaveService (s : State) (c : Fin 8) (cause : OffCause) :
    unitView (leaveService s c cause) = unitView s := by simp [leaveService]

@[simp] theorem unitView_restAfterFiring (s : State) (c : Fin 8) :
    unitView (restAfterFiring s c) = unitView s := by
  unfold restAfterFiring
  split <;> simp

@[simp] theorem unitView_examineEnd (s : State) (c : Fin 8) (e : Word) :
    unitView (examineEnd s c e) = unitView s := by
  have hqueue : ∀ u b, unitView (examineQueue u c b e) = unitView u := fun u b => by
    unfold examineQueue
    dsimp only
    split
    · simp
    · split <;> simp
  unfold examineEnd
  dsimp only
  split <;> simp [hqueue]

@[simp] theorem unitView_wrapPoint (s : State) (c : Fin 8) (b : Binding) (f : Firing)
    (target : Option Nat) (e : Word) : unitView (wrapPoint s c b f target e) = unitView s := by
  unfold wrapPoint
  dsimp only
  split
  · simp
  · split <;> simp

@[simp] theorem unitView_jumpToLoop (s : State) (c : Fin 8) (b : Binding) (f : Firing) (e : Word) :
    unitView (jumpToLoop s c b f e) = unitView s := by
  unfold jumpToLoop
  dsimp only
  split <;> simp

@[simp] theorem unitView_endStep (s : State) (c : Fin 8) (b : Binding) (f : Firing) (e : Word) :
    unitView (endStep s c b f e) = unitView s := by
  unfold endStep
  dsimp only
  split
  · simp
  split
  · simp
  split
  · simp
  split <;> simp

@[simp] theorem unitView_takeOffer (s : State) (c : Fin 8) (o : Offer) :
    unitView (takeOffer s c o) = unitView s := by
  unfold takeOffer
  split <;> simp

@[simp] theorem unitView_dueWhileRunning (s : State) (c : Fin 8) (b : Binding) :
    unitView (dueWhileRunning s c b) = unitView s := by
  unfold dueWhileRunning
  split <;> simp

@[simp] theorem unitView_handleDue (s : State) (c : Fin 8) :
    unitView (handleDue s c) = unitView s := by
  unfold handleDue
  dsimp only
  split
  · split
    · split
      · split <;> simp
      · split <;> simp
    · rfl
  · rfl

@[simp] theorem unitView_createEntry (s : State) (c : Fin 8) (source : Source)
    (trigger due : Word) : unitView (createEntry s c source trigger due) = unitView s := by
  unfold createEntry
  dsimp only
  split <;> simp

@[simp] theorem unitView_takeTrigger (s : State) (c : Fin 8) (t : Trigger) :
    unitView (takeTrigger s c t) = unitView s := by
  have hrefuse : ∀ cause, unitView (refuseTrigger s c t cause) = unitView s := fun cause => by
    unfold refuseTrigger
    dsimp only
    split
    · exact unitView_submitMissed _ _
    · exact unitView_submitMissed _ _
  have haccept : ∀ b, unitView (acceptTrigger s c b t) = unitView s := fun b => by
    unfold acceptTrigger
    split
    · exact hrefuse _
    · exact unitView_createEntry _ _ _ _ _
  unfold takeTrigger
  dsimp only
  split
  · rfl
  · exact hrefuse _
  · exact hrefuse _
  all_goals
    split
    · rfl
    · split
      · exact haccept _
      · exact hrefuse _

@[simp] theorem unitView_actOnStall (s : State) (c : Fin 8) :
    unitView (actOnStall s c) = unitView s := by
  unfold actOnStall
  dsimp only
  split
  · split
    · split <;> simp
    · rfl
  · rfl

/-! ### HALT, forcing and the cutoff -/

@[simp] theorem unitView_haltChannel (s : State) (c : Fin 8) :
    unitView (haltChannel s c) = unitView s := by simp [haltChannel]

@[simp] theorem unitView_forceChannel (s : State) (c : Fin 8) :
    unitView (forceChannel s c) = unitView s := by simp [forceChannel]

@[simp] theorem unitView_quiesce (s : State) : unitView (quiesce s) = unitView s :=
  unitView_foldl _ _ (fun u c => by unfold quiesceChannel; split <;> simp) s

@[simp] theorem unitView_trip (s : State) (cause : CutoffCause) :
    unitView (trip s cause) = unitView s := by
  have hmembers : ∀ u, unitView (forceMembers u) = unitView u :=
    unitView_foldl _ _ fun u c => by unfold forceMember; split <;> simp
  have hcutoff : ∀ k b, unitView (submit { s with cutoff := k } b) = unitView s :=
    fun k b => unitView_submit _ b
  unfold trip
  dsimp only
  split
  · rw [hmembers, hcutoff]
  · split
    · rfl
    · exact hcutoff _ _

@[simp] theorem unitView_releaseCutoff (s : State) : unitView (releaseCutoff s) = unitView s :=
  unitView_submit _ _

/-! ### The arbiter and the receiver -/

@[simp] theorem unitView_arbitrateCarry (s : State) (carry : Int) :
    unitView (arbitrateCarry s carry) = unitView s := by
  obtain ⟨_, hsession, _⟩ := storeView_eq_iff.mp (storeView_arbitrateCarry s carry)
  exact unitView_eq_iff.mpr ⟨by rw [arbitrateCarry_eq], by rw [arbitrateCarry_eq], hsession⟩

@[simp] theorem unitView_arbitrate (s : State) : unitView (arbitrate s) = unitView s :=
  unitView_arbitrateCarry s 0

@[simp] theorem unitView_concludeRequest (r : Request) (f : Frame) (s : State) :
    unitView (concludeRequest r f s) = unitView s := by
  obtain ⟨_, hsession, _⟩ := storeView_eq_iff.mp (storeView_concludeRequest r f s)
  exact unitView_eq_iff.mpr ⟨by simp, by simp, hsession⟩

/-- A received byte moves the link and the silence timer only. -/
@[simp] theorem unitView_receive (b : Byte) (s : State) : unitView (receive b s) = unitView s := by
  have hsilence : ∀ u, unitView (restartSilence u) = unitView u := fun u => by
    unfold restartSilence
    split <;> rfl
  have henqueue : ∀ u r, unitView (enqueueRequest u r) = unitView u := fun u r => by
    unfold enqueueRequest
    split <;> rfl
  have hrepeat : ∀ u e, unitView (repeatReply u e) = unitView u := fun u e => by
    unfold repeatReply
    split
    · rfl
    · split <;> rfl
  have haccept : ∀ u r, unitView (acceptFrame u r) = unitView u := fun u r => by
    unfold acceptFrame
    dsimp only
    split
    · split
      · rw [hrepeat, hsilence]
      · split
        · exact hsilence u
        · rw [henqueue, hsilence]
    · rw [henqueue, hsilence]
  unfold receive
  split
  · split <;> rfl
  · split <;> rfl
  · rfl
  · rfl
  · rw [unitView_arbitrate]
    unfold judgeFrame
    split
    · rfl
    · split
      · exact haccept _ _
      · rfl

/-! ## The laws of the line unit -/

/-- What a sample makes of a candidate is for a level other than the accepted one (R89). -/
theorem sampleFilter_level_ne {a x : Level} {k : Option Candidate} :
    ∀ y ∈ sampleFilter a k x, y.level ≠ a := by
  intro y hy
  unfold sampleFilter at hy
  split at hy
  · cases hy
  · next hx =>
    have hlevel : y.level = x := by
      split at hy
      · split at hy
        · next h => cases hy; exact h
        · cases hy; rfl
      · cases hy; rfl
    exact hlevel ▸ hx

section
variable {l : LineUnit}

theorem LineLaw.tick (h : LineLaw l) (level : Level) : LineLaw (tickLine level l) := by
  obtain ⟨hfresh, hlimit, hwaiting, htimed, hquiet, hstalled, _⟩ := h
  refine ⟨hfresh, hlimit, hwaiting, ?_, fun q hq => ?_, hstalled, sampleFilter_level_ne⟩
  · simpa [tickLine, tickQuiet] using htimed
  · obtain ⟨n, _, rfl⟩ := Option.map_eq_some_iff.mp hq
    exact Nat.min_le_right _ _

/-- An accepted rising edge: the line is MOVING, from an edge with no quiet time (R90). -/
theorem LineLaw.rise (h : LineLaw l) (now : Word) : LineLaw (l.rise now) := by
  obtain ⟨_, hlimit, _⟩ := h
  refine ⟨Nat.min_le_right _ _, hlimit, ?_, rfl, fun q hq => ?_, fun h => ?_, fun k hk => ?_⟩
  · simp [LineUnit.rise]
  · cases hq
    exact Nat.zero_le _
  · cases h
  · cases hk

/-- An accepted level with no candidate (R89, R101). -/
theorem LineLaw.accept (h : LineLaw l) (level : Level) :
    LineLaw { l with level := level, candidate := none } := by
  obtain ⟨hfresh, hlimit, hwaiting, htimed, hquiet, hstalled, _⟩ := h
  exact ⟨hfresh, hlimit, hwaiting, htimed, hquiet, hstalled, fun k hk => by cases hk⟩

/-- A MOVING line that stalls has had an edge (R91). -/
theorem LineLaw.stall (h : LineLaw l) (hmoving : l.lineState = .moving) :
    LineLaw { l with lineState := .stalled, period := some 0, freshEdges := 0 } := by
  obtain ⟨_, hlimit, hwaiting, htimed, hquiet, _, hlevel⟩ := h
  refine ⟨Nat.zero_le _, hlimit, ?_, htimed, hquiet, fun _ => ⟨rfl, rfl⟩, hlevel⟩
  simp [← hwaiting, hmoving]

/-- A STALLED line that moves again has had an edge (R96). -/
theorem LineLaw.resume (h : LineLaw l) (hstate : l.lineState = .stalled) :
    LineLaw { l with lineState := .moving } := by
  obtain ⟨hfresh, hlimit, hwaiting, htimed, hquiet, _, hlevel⟩ := h
  refine ⟨hfresh, hlimit, ?_, htimed, hquiet, fun h => (by cases h), hlevel⟩
  simp [← hwaiting, hstate]

theorem LineLaw.configure (h : LineLaw l) (filter : BitVec 4) {limit : Half}
    (hl : limit.toNat ≤ 60000) : LineLaw { l with filter := filter, stallLimit := limit } := by
  obtain ⟨hfresh, _, hlaws⟩ := h
  exact ⟨hfresh, hl, hlaws⟩

theorem lineLaw_init : LineLaw LineUnit.init := by decide

theorem LineLaw.restart (l : LineUnit) : LineLaw l.restart := by
  refine ⟨Nat.zero_le _, Nat.zero_le _, ?_, rfl, ?_, fun h => (by cases h), ?_⟩ <;>
    simp [LineUnit.restart]

end

theorem moving_of_stallReached {l : LineUnit} (h : stallReached l = true) :
    l.lineState = .moving := by
  simp only [stallReached, Bool.and_eq_true, decide_eq_true_eq] at h
  obtain ⟨⟨hmoving, _⟩, _⟩ := h
  exact hmoving

/-! ## The laws of an input -/

section
variable {i : CapInput}

theorem InputLaw.tick (h : InputLaw i) (level : Level) : InputLaw (tickInput level i) := by
  obtain ⟨hoff, hcand, hmode, hcount, hlevel⟩ := h
  unfold tickInput
  split
  · exact ⟨hoff, hcand, hmode, hcount, hlevel⟩
  · next a ha =>
    have hon : i.mode ≠ .off := fun h => by simp [hoff.mp h] at ha
    refine ⟨hoff, fun h => absurd h hon, fun h => ?_, fun m hm => ?_, fun k hk => ?_⟩
    · simp [hmode h]
    · obtain ⟨n, _, rfl⟩ := Option.map_eq_some_iff.mp hm
      exact Nat.min_le_right _ _
    · rw [ha]
      exact fun h => sampleFilter_level_ne k hk (Option.some.inj h).symm

/-- An accepted level with no candidate (R104). -/
theorem InputLaw.accept (h : InputLaw i) (hon : i.mode ≠ .off) (level : Level) :
    InputLaw { i with level := some level, candidate := none } := by
  obtain ⟨_, _, hmode, hcount, _⟩ := h
  exact ⟨⟨fun h => absurd h hon, fun h => by cases h⟩, fun _ => rfl, hmode, hcount,
    fun k hk => by cases hk⟩

theorem InputLaw.noMeasure (h : InputLaw i) : InputLaw { i with measure := none } := by
  obtain ⟨hoff, hcand, _, _, hlevel⟩ := h
  exact ⟨hoff, hcand, fun _ => rfl, fun m hm => (by cases hm), hlevel⟩

/-- A measurement opened in a mode that measures (R108, R109). -/
theorem InputLaw.openMeasure (h : InputLaw i) (hoff : i.mode ≠ .off) (hedges : i.mode ≠ .edges)
    (now : Word) : InputLaw { i with measure := some { start := now, elapsed := 0 } } := by
  obtain ⟨hlevel, hcand, _, _, hne⟩ := h
  exact ⟨hlevel, hcand, fun h => (h.elim hoff hedges).elim,
    fun m hm => by cases hm; exact Nat.zero_le _, hne⟩

/-- An edge offered to the log leaves the input lawful (R107 to R109). -/
theorem InputLaw.offerToLog (h : InputLaw i) (now : Word) (e : Edge) :
    InputLaw (offerToLog now e i).2 := by
  have hwidth : ∀ kind opening, i.mode ≠ .off → i.mode ≠ .edges →
      InputLaw (measureWidth kind opening now e i).2 := fun kind opening h1 h2 => by
    unfold measureWidth
    split
    · exact h.openMeasure h1 h2 now
    · exact h.noMeasure
  have hperiod : ∀ timed, i.mode ≠ .off → i.mode ≠ .edges →
      InputLaw (measurePeriod timed now e i).2 := fun timed h1 h2 => by
    unfold measurePeriod
    split
    · exact h.openMeasure h1 h2 now
    · exact h
  unfold Machine.offerToLog
  split
  · exact h
  · exact h
  · next hm => exact hwidth _ _ (by simp [hm]) (by simp [hm])
  · next hm => exact hwidth _ _ (by simp [hm]) (by simp [hm])
  · next hm => exact hperiod _ (by simp [hm]) (by simp [hm])
  · next hm => exact hperiod _ (by simp [hm]) (by simp [hm])

/-- CAPTURE_CONFIG leaves the input lawful, whatever the change of mode (R111). -/
theorem InputLaw.configure (h : InputLaw i) (mode : CapMode) (logEdges : LogEdges)
    (filter : BitVec 4) (pin : Level) :
    InputLaw (configureInput i mode logEdges filter pin) := by
  obtain ⟨hoff, _, _, _, hlevel⟩ := h
  unfold configureInput
  dsimp only
  split
  · next hm => exact ⟨by simp [hm], fun _ => rfl, fun _ => rfl, fun m hm => (by cases hm),
      fun k hk => (by cases hk)⟩
  next hm =>
  split
  · exact ⟨by simp [hm], fun _ => rfl, fun _ => rfl, fun m hm => (by cases hm),
      fun k hk => (by cases hk)⟩
  · next hon =>
    exact ⟨by simp [hm, ← hoff, hon], fun h => absurd h hm, fun _ => rfl,
      fun m hm => (by cases hm), hlevel⟩

end

/-- A mode other than OFF is what lets a candidate be complete (R104). -/
theorem mode_ne_off_of_inputChange {i : CapInput} {level : Level}
    (h : inputChange i = some level) : i.mode ≠ .off := by
  intro hm
  simp [inputChange, hm] at h

/-- No edge logs a GAP entry: those come from entries that leave the log (R107 to R109, R121). -/
theorem offerToLog_kind_ne_gap {now : Word} {e : Edge} {i : CapInput} {l : Logged}
    (h : (offerToLog now e i).1 = some l) : l.kind ≠ .gap := by
  have hmeasured : ∀ kind m, (measured kind m).kind = kind := fun kind m => by
    unfold measured
    split <;> rfl
  have hwidth : ∀ kind opening, kind ≠ .gap →
      (measureWidth kind opening now e i).1 = some l → l.kind ≠ .gap := fun kind opening hk h => by
    unfold measureWidth at h
    split at h
    · cases h
    · obtain ⟨m, _, rfl⟩ := Option.map_eq_some_iff.mp h
      exact (hmeasured kind m).symm ▸ hk
  have hperiod : ∀ timed, (measurePeriod timed now e i).1 = some l → l.kind ≠ .gap :=
    fun timed h => by
      unfold measurePeriod at h
      split at h
      · obtain ⟨m, _, rfl⟩ := Option.map_eq_some_iff.mp h
        rw [hmeasured]
        decide
      · cases h
  unfold offerToLog at h
  split at h
  · cases h
  · dsimp only at h
    split at h
    · cases h
      cases e <;> decide
    · cases h
  · exact hwidth _ _ (by decide) h
  · exact hwidth _ _ (by decide) h
  · exact hperiod _ h
  · exact hperiod _ h

/-! ## The laws of the log -/

theorem InSequence.drop {log : List CapEntry} (h : InSequence log) (n : Nat) :
    InSequence (log.drop n) := by
  induction n generalizing log with
  | zero => exact h
  | succ n ih =>
    match log, h with
    | [], _ => exact trivial
    | [_], _ => exact ih (log := []) trivial
    | _ :: b :: rest, h => exact ih (log := b :: rest) h.2

/-- A new tail entry that follows the last one keeps the sequence (R119). -/
theorem InSequence.concat {log : List CapEntry} {e : CapEntry} (h : InSequence log)
    (he : ∀ a ∈ log.getLast?, Follows a e) : InSequence (log ++ [e]) := by
  induction log with
  | nil => exact trivial
  | cons a rest ih =>
    cases rest with
    | nil => exact ⟨he a rfl, trivial⟩
    | cons b rest => exact ⟨h.1, ih h.2 he⟩

theorem satSucc_ne_zero (h : Half) : h.satSucc ≠ 0 := by
  unfold Half.satSucc
  split <;> bv_omega

section
variable {cap : Capture}

/-- A logged event takes its number, in the log or among the drops (R119, R120). -/
theorem LogLaw.record (h : LogLaw cap) (input : Fin 4) {l : Logged} (hl : l.kind ≠ .gap)
    (time line : Word) : LogLaw (cap.record input l time line) := by
  obtain ⟨hsize, hfull, hlast, hseq, hnext⟩ := h
  unfold Capture.record
  split
  · next hroom =>
    refine ⟨hsize, fun _ => Nat.le_antisymm hsize hroom,
      ⟨fun _ => satSucc_ne_zero _, fun _ => rfl⟩, hseq, fun a ha => ?_⟩
    show cap.dropCount.satSucc = 65535 ∨
      cap.nextNumber + 1 = a.number + 1 + cap.dropCount.satSucc
    have := hnext a ha
    unfold Half.satSucc
    split
    · next hd => exact .inl hd
    · next hd => exact .inr (by rw [this.resolve_left hd]; ac_rfl)
  · next hroom =>
    have hroom : cap.log.length < 64 := Nat.lt_of_not_le hroom
    have hdrop : cap.dropCount = 0 := by
      by_contra hd
      exact absurd (hfull hd) hroom.ne
    refine ⟨by simpa using hroom, fun hd => absurd hdrop hd, hlast, hseq.concat fun a ha => ?_,
      fun a ha => ?_⟩
    · have := hnext a ha
      simpa [Follows, hl, hdrop] using this
    · obtain rfl : _ = a := by simpa using ha
      simp [hdrop]

/-- When entries have left the log, the drops waiting go into a GAP entry, which carries their
number (R121). -/
theorem LogLaw.appendGap_drop (h : LogLaw cap) {n : Nat} (hn : 1 ≤ n) (time line : Word) :
    LogLaw (Capture.appendGap { cap with log := cap.log.drop n } time line) := by
  obtain ⟨hsize, hfull, hlast, hseq, hnext⟩ := h
  have hlen : (cap.log.drop n).length ≤ cap.log.length - 1 := by
    rw [List.length_drop]
    omega
  have hkept : ∀ a ∈ (cap.log.drop n).getLast?, a ∈ cap.log.getLast? := fun a ha => by
    rw [List.getLast?_drop] at ha
    split at ha
    · cases ha
    · exact ha
  unfold Capture.appendGap
  split
  · next hd =>
    exact ⟨hlen.trans (by omega), fun hne => absurd hd hne, hlast, hseq.drop n,
      fun a ha => hnext a (hkept a ha)⟩
  · next hd =>
    have hd : cap.dropCount ≠ 0 := hd
    have hfull := hfull hd
    refine ⟨?_, fun hne => absurd rfl hne, by simp, (hseq.drop n).concat fun a ha => ?_,
      fun a ha => ?_⟩
    · simp only [List.length_append, List.length_singleton]
      omega
    · rcases hnext a (hkept a ha) with hsat | hnum
      · simp [Follows, hsat]
      · simp [Follows, hnum]
    · obtain rfl : _ = a := by simpa using ha
      simp

theorem LogLaw.moveCaptures (h : LogLaw cap) (n : Nat) (time line : Word) (se : Session) :
    LogLaw (moveCaptures n time line cap se).1 := by
  induction n generalizing cap se with
  | zero => exact h
  | succ n ih =>
    unfold Machine.moveCaptures
    split
    · split
      · exact h
      · next e rest hlog =>
        have hmoved := h.appendGap_drop (Nat.le_refl 1) time line
        rw [hlog] at hmoved
        dsimp only
        split
        · exact ih hmoved _
        · exact h
    · exact h

end

/-! ## The line unit moves -/

section
variable (s : State)

theorem UnitsKept.fallLine : UnitsKept s { s with line := s.line.fall } :=
  .of_line rfl rfl fun h => h.accept .low

theorem UnitsKept.riseLine : UnitsKept s (riseLine s) := by
  have hrise : UnitsKept s { s with line := s.line.rise s.timeBase } :=
    .of_line rfl rfl fun h => h.rise _
  unfold Machine.riseLine
  dsimp only
  split
  · exact hrise.then_view (unitView_submit _ _)
  · exact hrise

theorem unitView_handStallNotices : unitView (handStallNotices s) = unitView s := rfl

theorem UnitsKept.stallLine (h : stallReached s.line = true) : UnitsKept s (stallLine s) := by
  have hstall : UnitsKept s
      { s with line := { s.line with lineState := .stalled, period := some 0, freshEdges := 0 } } :=
    .of_line rfl rfl fun hl => hl.stall (moving_of_stallReached h)
  exact hstall.then_view ((unitView_handStallNotices _).trans (unitView_submit _ _))

theorem UnitsKept.applyLineFilter : UnitsKept s (applyLineFilter s) := by
  unfold Machine.applyLineFilter
  split
  · exact .riseLine s
  · exact .fallLine s
  · exact .refl s

theorem UnitsKept.applyStallLimit : UnitsKept s (applyStallLimit s) := by
  unfold Machine.applyStallLimit
  split
  · next h => exact .of_line rfl rfl fun hl => hl.resume h.1
  · split
    · next h => exact .stallLine s h
    · exact .refl s

theorem UnitsKept.applyLineSettings : UnitsKept s (applyLineSettings s) := by
  have hcount : UnitsKept s { s with freeCount := s.freeCount + 1 } := .of_view rfl
  unfold Machine.applyLineSettings
  dsimp only
  split
  · split
    · exact (hcount.trans (.applyLineFilter _)).trans (.applyStallLimit _)
    · exact (hcount.trans (.applyStallLimit _)).trans (.applyLineFilter _)
  · exact (UnitsKept.applyLineFilter s).trans (.applyStallLimit _)

theorem UnitsKept.presetLine (v : Word) : UnitsKept s (presetLine v s) := .of_line rfl rfl id

end

/-! ## The capture unit moves -/

theorem CaptureLaw.setInput {s : State} (hs : CaptureLaw s) (i : Fin 4) {r : CapInput}
    (hr : InputLaw r) : CaptureLaw (s.setInput i r) := by
  obtain ⟨hlog, hroute, hinput, hstream⟩ := hs
  refine ⟨hlog, hroute, fun j => ?_, hstream⟩
  rw [setInput_input]
  split
  · exact hr
  · exact hinput j

/-- A free id takes a route that the table does not hold yet (R113, R114). -/
theorem CaptureLaw.addRoute {s : State} (hs : CaptureLaw s) (id : Fin 16) {r : Route}
    (hr : findRoute s r = none) : CaptureLaw (s.setRoute id (some r)) := by
  obtain ⟨hlog, hroute, hinput, hstream⟩ := hs
  have hnew : ∀ j, s.route j ≠ some r := by simpa [findRoute, allRoutes] using hr
  refine ⟨hlog, fun i j hi hij => ?_, hinput, hstream⟩
  simp only [setRoute_route] at hi hij
  by_cases h1 : i = id <;> by_cases h2 : j = id
  · rw [h1, h2]
  · rw [if_pos h1, if_neg h2] at hij
    exact absurd hij.symm (hnew j)
  · rw [if_neg h1, if_pos h2] at hij
    exact absurd hij (hnew i)
  · rw [if_neg h1] at hi
    rw [if_neg h1, if_neg h2] at hij
    exact hroute i j hi hij

theorem CaptureLaw.removeRoute {s : State} (hs : CaptureLaw s) (id : Fin 16) :
    CaptureLaw (s.setRoute id none) := by
  obtain ⟨hlog, hroute, hinput, hstream⟩ := hs
  refine ⟨hlog, fun i j hi hij => ?_, hinput, hstream⟩
  simp only [setRoute_route] at hi hij
  by_cases h1 : i = id
  · exact absurd (if_pos h1) hi
  · rw [if_neg h1] at hi hij
    by_cases h2 : j = id
    · exact absurd (hij.trans (if_pos h2)) hi
    · exact hroute i j hi (hij.trans (if_neg h2))

/-- Moves leave the log lawful; none is made without a session, where streaming is off (R122,
R125). -/
theorem CaptureLaw.tryMoves {s : State} (hs : CaptureLaw s) : CaptureLaw (tryMoves s) := by
  cases ho : s.session.state with
  | closed => rwa [tryMoves_of_off (hs.streaming_of_closed ho)]
  | opened =>
    obtain ⟨hinputs, hroutes⟩ := moveCaptures_keeps Config.reportQueueSize s.timeBase
      s.line.lineBase s.capture s.session
    refine hs.of_log (hs.log.moveCaptures _ _ _ _) hinputs hroutes fun hc => ?_
    have hsame : (Machine.tryMoves s).session.state = s.session.state :=
      moveCaptures_state _ _ _ _ _
    rw [hsame, ho] at hc
    cases hc

theorem UnitsKept.tryMoves (s : State) : UnitsKept s (tryMoves s) :=
  .of_capture rfl fun hs => hs.tryMoves

theorem record_streaming (cap : Capture) (i : Fin 4) (l : Logged) (t w : Word) :
    (cap.record i l t w).streaming = cap.streaming := by
  unfold Capture.record
  split <;> rfl

theorem appendGap_keeps (cap : Capture) (t w : Word) :
    (cap.appendGap t w).inputs = cap.inputs ∧ (cap.appendGap t w).routes = cap.routes ∧
      (cap.appendGap t w).streaming = cap.streaming := by
  unfold Capture.appendGap
  split <;> exact ⟨rfl, rfl, rfl⟩

theorem CaptureLaw.logEvent {s : State} (hs : CaptureLaw s) (i : Fin 4) {l : Logged}
    (hl : l.kind ≠ .gap) : CaptureLaw (logEvent s i l) := by
  have hrecord : CaptureLaw
      { s with capture := s.capture.record i l s.timeBase s.line.lineBase } := by
    obtain ⟨hinputs, hroutes⟩ := record_keeps s.capture i l s.timeBase s.line.lineBase
    exact hs.of_log (hs.log.record i hl _ _) hinputs hroutes
      fun hc => (record_streaming _ _ _ _ _).trans (hs.streaming_of_closed hc)
  unfold Machine.logEvent
  dsimp only
  split
  · exact hrecord
  · exact hrecord.tryMoves

/-- An edge accepted on an input whose mode is not OFF: what follows is the log's and the
channels' (R104 to R106). -/
theorem UnitsKept.acceptEdge (s : State) (i : Fin 4) (level : Level)
    (hon : (s.input i).mode ≠ .off) : UnitsKept s (acceptEdge s i level) := by
  have hroutes : ∀ e, ∀ u, unitView (allRoutes.foldl (deliverRoute i e) u) = unitView u :=
    fun e => unitView_foldl _ _ fun u id => by rw [deliverRoute_eq]; rfl
  have hoffers : ∀ e, ∀ u, unitView (allChannels.foldl (offerEdge i e) u) = unitView u :=
    fun e => unitView_foldl _ _ fun u c => by rw [offerEdge_eq]; rfl
  have hset : ∀ r, (InputLaw (s.input i) → InputLaw r) → UnitsKept s (s.setInput i r) :=
    fun r hr => .of_capture rfl fun hs => hs.setInput i (hr (hs.input i))
  unfold Machine.acceptEdge
  dsimp only
  refine UnitsKept.then_view ?_ ((hoffers _ _).trans (hroutes _ _))
  have hinput := hset _ fun h => (h.accept hon level).offerToLog s.timeBase (edgeTo level)
  split
  · next l hl =>
    exact hinput.trans (.of_capture (by rw [logEvent_eq]) fun hs =>
      hs.logEvent i (offerToLog_kind_ne_gap hl))
  · exact hinput

theorem UnitsKept.configureCapture (s : State) (i : Fin 4) (mode : CapMode)
    (logEdges : LogEdges) (filter : BitVec 4) :
    UnitsKept s (configureCapture s i mode logEdges filter) := by
  have hset : UnitsKept s
      (s.setInput i (configureInput (s.input i) mode logEdges filter s.pins.cap[i])) :=
    .of_capture rfl fun hs => hs.setInput i ((hs.input i).configure _ _ _ _)
  unfold Machine.configureCapture
  dsimp only
  split
  · next hc =>
    refine hset.trans (.acceptEdge _ i _ ?_)
    rw [setInput_input_same]
    exact mode_ne_off_of_inputChange hc
  · exact hset

/-- READ_CAPTURES takes at least one entry from a log that holds any, so that a GAP entry finds room
(R121, R123). -/
theorem UnitsKept.readCaptures (s : State) {maximum : Nat} (hm : maximum ≠ 0) :
    UnitsKept s (readCaptures s maximum).2 := by
  refine .of_capture rfl fun hs => ?_
  obtain ⟨hinputs, hroutes, hflag⟩ := appendGap_keeps
    { s.capture with log := s.capture.log.drop maximum } s.timeBase s.line.lineBase
  exact hs.of_log (hs.log.appendGap_drop (Nat.one_le_iff_ne_zero.mpr hm) _ _) hinputs hroutes
    fun hc => hflag.trans (hs.streaming_of_closed hc)

theorem UnitsKept.setStreaming (s : State) (on : Bool) (ho : s.session.state = .opened) :
    UnitsKept s (setStreaming s on) := by
  have hset : UnitsKept s { s with capture := { s.capture with streaming := on } } :=
    .of_capture rfl fun hs => hs.of_streaming rfl fun hc => by
      rw [show _ = SessionState.opened from ho] at hc
      cases hc
  unfold Machine.setStreaming
  dsimp only
  split
  · exact hset.trans (.tryMoves _)
  · exact hset

/-! ## Both units move -/

/-- One tick: both units sample their inputs and count (R86). -/
theorem UnitsKept.tick (s : State) (pins : Pins) : UnitsKept s (tick pins s) := by
  unfold Machine.tick
  dsimp only
  split
  · exact .of_view rfl
  · refine ⟨fun h => h.tick _, fun ⟨hlog, hroute, hinput, hstream⟩ =>
      ⟨hlog, hroute, fun i => ?_, hstream⟩⟩
    have hi : InputLaw (tickInput pins.cap[i] (s.input i)) := (hinput i).tick _
    simpa [State.input] using hi

theorem captureLaw_init {s : State} (h : s.capture = Capture.init) : CaptureLaw s := by
  have hlog : LogLaw Capture.init := by
    refine ⟨Nat.zero_le _, fun hd => absurd rfl hd, by decide, trivial, fun a ha => ?_⟩
    cases ha
  refine ⟨h ▸ hlog, fun i j hi => ?_, fun i => ?_, fun _ => by rw [h]; rfl⟩
  · simp [State.route, h, Capture.init] at hi
  · have hi : s.input i = CapInput.init := by simp [State.input, h, Capture.init]
    rw [hi]
    decide

theorem UnitsKept.closeSession (s : State) (cause : CloseCause) :
    UnitsKept s (closeSession s cause) := by
  obtain ⟨_, heq⟩ := closeSession_spec s _ cause rfl
  rw [heq]
  exact .of_capture rfl fun hs => hs.of_streaming rfl fun _ => rfl

theorem UnitsKept.openSession (s : State) (silence resend : Half) (mask : ReportMask) :
    UnitsKept s (openSession s silence resend mask) := by
  have hopen : ∀ u : State, UnitsKept u
      { u with session := u.session.openNew s.timeBase silence resend mask
               link := { u.link with cache := [] } } :=
    fun u => .of_capture rfl fun hu => hu.of_streaming rfl fun hc => by cases hc
  unfold Machine.openSession
  dsimp only
  split
  · exact (UnitsKept.closeSession s .reopen).trans (hopen _)
  · exact hopen s

/-- RESTART gives both units their own values (R102, R126, R157). -/
theorem UnitsKept.softReset (s : State) : UnitsKept s (softReset s) := by
  obtain ⟨heq, _⟩ := softReset_spec s _ rfl
  rw [heq]
  exact ⟨fun _ => .restart _, fun _ => captureLaw_init rfl⟩

theorem UnitsKept.endTransmission (s : State) (left : Int) :
    UnitsKept s (endTransmission s left) := by
  have hidle : UnitsKept s { s with link := { s.link with transmitter := .idle } } := .of_view rfl
  unfold Machine.endTransmission
  dsimp only
  split
  · exact hidle.trans (.softReset _)
  · exact hidle.then_view (unitView_arbitrateCarry _ _)

/-- The end of start-up takes the level of LINE (R101). -/
theorem UnitsKept.endStartUp (s : State) : UnitsKept s (endStartUp s) := by
  have htake : ∀ up link cutoff, UnitsKept s
      { s with startUp := up, link := link, cutoff := cutoff
               line := { s.line with level := s.pins.line, candidate := none } } :=
    fun _ _ _ => .of_line rfl rfl fun h => h.accept _
  unfold Machine.endStartUp
  dsimp only
  split
  · exact (htake _ _ _).then_view (unitView_trip _ _)
  · exact htake _ _ _

/-! ## The requests -/

/-- The execution of a request with this answer keeps the laws of both units. -/
def KeepsUnits (answer : State → List Byte → Answer × State) : Prop :=
  ∀ s payload, UnitsKept s (answer s payload).2

theorem keepsUnits_of_view {answer : State → List Byte → Answer × State}
    (h : ∀ s payload, unitView (answer s payload).2 = unitView s) : KeepsUnits answer :=
  fun s payload => .of_view (h s payload)

theorem takeRequest_unitView {mine : Byte → Bool} {s s0 : State} {r : Request}
    (h : takeRequest mine s = some (r, s0)) : unitView s0 = unitView s := by
  unfold takeRequest at h
  split at h
  · cases h
  · split at h
    · cases h
      rfl
    · cases h

theorem UnitsKept.serveRequest {answer : State → List Byte → Answer × State}
    (h : KeepsUnits answer) (k : Byte) (s : State) : UnitsKept s (serveRequest k answer s) := by
  unfold Machine.serveRequest
  split
  · exact .refl s
  · next htake =>
    exact ((UnitsKept.of_view (takeRequest_unitView htake)).trans (h _ _)).then_view
      (unitView_concludeRequest _ _ _)

theorem unitView_inSession {s : State} {n : Nat} {k : Answer × State}
    (hk : unitView k.2 = unitView s) : unitView (inSession s n k).2 = unitView s := by
  unfold inSession
  split
  · rfl
  · exact hk

theorem UnitsKept.inSession {s : State} {n : Nat} {k : Answer × State}
    (hk : s.session.state = .opened → UnitsKept s k.2) : UnitsKept s (inSession s n k).2 := by
  unfold Machine.inSession
  cases ho : s.session.state with
  | closed => exact .refl s
  | opened => exact hk ho

/-! ### Requests to the program store -/

theorem unitView_changeProgram {s : State} {id : Byte} {k : Fin 32 → Answer × State}
    (hk : ∀ q, unitView (k q).2 = unitView s) : unitView (changeProgram s id k).2 = unitView s := by
  unfold changeProgram
  split
  · rfl
  · split
    · rfl
    · exact hk _

theorem keepsUnits_defineProgram : KeepsUnits answerDefineProgram := by
  refine keepsUnits_of_view fun s payload => ?_
  unfold answerDefineProgram
  split
  · refine unitView_changeProgram fun q => ?_
    unfold defineProgram
    split
    · rfl
    split
    · rfl
    split <;> rfl
  · rfl

theorem keepsUnits_appendSteps : KeepsUnits answerAppendSteps := by
  refine keepsUnits_of_view fun s payload => ?_
  unfold answerAppendSteps
  split
  · split
    · refine unitView_changeProgram fun q => ?_
      unfold appendSteps
      dsimp only
      split
      · rfl
      split
      · rfl
      split
      · rfl
      split
      · rfl
      split <;> rfl
    · rfl
  · rfl

theorem keepsUnits_sealProgram : KeepsUnits answerSealProgram := by
  refine keepsUnits_of_view fun s payload => ?_
  unfold answerSealProgram
  split
  · refine unitView_changeProgram fun q => ?_
    unfold sealProgram
    dsimp only
    split
    · rfl
    split <;> rfl
  · rfl

theorem keepsUnits_discardProgram : KeepsUnits answerDiscardProgram := by
  refine keepsUnits_of_view fun s payload => ?_
  unfold answerDiscardProgram
  split
  · refine unitView_changeProgram fun q => ?_
    unfold discardProgram
    split <;> rfl
  · rfl

theorem keepsUnits_deleteProgram : KeepsUnits answerDeleteProgram := by
  refine keepsUnits_of_view fun s payload => ?_
  unfold answerDeleteProgram
  split
  · refine unitView_changeProgram fun q => ?_
    unfold deleteProgram
    split
    · rfl
    split <;> rfl
  · rfl

theorem keepsUnits_programInfo : KeepsUnits answerProgramInfo := by
  refine keepsUnits_of_view fun s payload => ?_
  unfold answerProgramInfo
  split
  · refine unitView_inSession ?_
    split <;> rfl
  · rfl

theorem keepsUnits_programRead : KeepsUnits answerProgramRead := by
  refine keepsUnits_of_view fun s payload => ?_
  unfold answerProgramRead
  split
  · refine unitView_inSession ?_
    split <;> rfl
  · rfl

/-! ### Requests to a channel -/

theorem keepsUnits_channelRequest {n : Nat} {k : State → Fin 8 → Answer × State}
    (h : ∀ s c, unitView (k s c).2 = unitView s) : KeepsUnits (channelRequest n k) := by
  refine keepsUnits_of_view fun s payload => ?_
  unfold channelRequest
  split
  · refine unitView_inSession ?_
    split
    · rfl
    · exact h s _
  · rfl

theorem unitView_enableChannel (s : State) (c : Fin 8) :
    unitView (enableChannel s c).2 = unitView s := by
  unfold enableChannel
  dsimp only
  split
  · rfl
  split
  · rfl
  split
  · rfl
  split <;> rfl

theorem unitView_stopChannel (s : State) (c : Fin 8) :
    unitView (stopChannel s c).2 = unitView s := by
  unfold stopChannel
  split <;> simp

theorem unitView_haltRequest (s : State) (c : Fin 8) :
    unitView (haltRequest s c).2 = unitView s := by
  unfold haltRequest
  split
  · rfl
  split
  · exact unitView_haltChannel s c
  · rfl

theorem unitView_bindProgram (s : State) (c : Fin 8) (b : Binding) :
    unitView (bindProgram s c b).2 = unitView s := by
  have hstage : unitView (stageBinding s c b) = unitView s := by
    unfold stageBinding
    dsimp only
    split <;> simp
  unfold bindProgram
  dsimp only
  split
  · rfl
  split
  · rfl
  split
  · rfl
  split
  · simp [installBinding_eq]
  split
  · rfl
  · exact hstage

theorem unitView_bindNothing (s : State) (c : Fin 8) :
    unitView (bindNothing s c).2 = unitView s := by
  unfold bindNothing
  split
  · rfl
  · simp [removeBinding_eq]
  · exact unitView_discardPending s c

theorem keepsUnits_bind : KeepsUnits answerBind := by
  refine keepsUnits_of_view fun s payload => ?_
  unfold answerBind
  split
  · refine unitView_inSession ?_
    split
    · rfl
    split
    · exact unitView_bindNothing s _
    split
    · rfl
    split
    · rfl
    · exact unitView_bindProgram s _ _
  · rfl

theorem unitView_fireChannel (s : State) (c : Fin 8) (tag : Half) (presence : Byte) (due : Word) :
    unitView (fireChannel s c tag presence due).2 = unitView s := by
  unfold fireChannel
  dsimp only
  split
  · rfl
  split
  · rfl
  split
  · rfl
  split
  · rfl
  split
  · rfl
  · exact unitView_createEntry _ _ _ _ _

theorem keepsUnits_fire : KeepsUnits answerFire := by
  refine keepsUnits_of_view fun s payload => ?_
  unfold answerFire
  split
  · refine unitView_inSession ?_
    split
    · rfl
    · exact unitView_fireChannel s _ _ _ _
  · rfl

theorem unitView_setOptions (s : State) (c : Fin 8) (member : Bool) (safe : Level) :
    unitView (setOptions s c member safe).2 = unitView s := by
  unfold setOptions
  split
  · rfl
  split <;> rfl

theorem keepsUnits_setChannelOptions : KeepsUnits answerSetChannelOptions := by
  refine keepsUnits_of_view fun s payload => ?_
  unfold answerSetChannelOptions
  split
  · refine unitView_inSession ?_
    split
    · rfl
    split
    · exact unitView_setOptions s _ _ _
    · rfl
  · rfl

/-! ### Requests to the part, the cutoff and the session -/

theorem keepsUnits_ident : KeepsUnits answerIdent := by
  refine keepsUnits_of_view fun s payload => ?_
  unfold answerIdent
  split <;> rfl

theorem keepsUnits_status : KeepsUnits answerStatus := by
  refine keepsUnits_of_view fun s payload => ?_
  unfold answerStatus
  split
  · split <;> rfl
  · rfl

theorem keepsUnits_restart : KeepsUnits answerRestart := by
  refine keepsUnits_of_view fun s payload => ?_
  unfold answerRestart
  split <;> rfl

theorem keepsUnits_cutoff : KeepsUnits answerCutoff := by
  refine keepsUnits_of_view fun s payload => ?_
  unfold answerCutoff
  split
  · exact unitView_trip s _
  · rfl

theorem keepsUnits_cutoffRelease : KeepsUnits answerCutoffRelease := by
  refine keepsUnits_of_view fun s payload => ?_
  unfold answerCutoffRelease
  split
  · refine unitView_inSession ?_
    split
    · rfl
    split
    · rfl
    · exact unitView_releaseCutoff s
  · rfl

theorem keepsUnits_openSession : KeepsUnits answerOpenSession := by
  intro s payload
  unfold answerOpenSession
  split
  · dsimp only
    split
    · exact .refl s
    split
    · exact .refl s
    split
    · exact .refl s
    · exact .openSession s _ _ _
  · exact .refl s

theorem keepsUnits_closeSession : KeepsUnits answerCloseSession := by
  intro s payload
  unfold answerCloseSession
  split
  · refine .inSession fun _ => ?_
    split
    · exact .refl s
    · dsimp only
      exact (UnitsKept.of_view (unitView_quiesce s)).trans (.closeSession _ _)
    · dsimp only
      exact .closeSession s _
  · exact .refl s

theorem keepsUnits_ackReports : KeepsUnits answerAckReports := by
  intro s payload
  have hack : ∀ n, UnitsKept s (acknowledge s n) := fun n => by
    have hremoved : unitView
        { s with session := (s.session.acknowledge s.timeBase n).lossCheck } = unitView s :=
      unitView_eq_iff.mpr ⟨rfl, rfl, lossCheck_state _⟩
    unfold acknowledge
    exact (UnitsKept.of_view hremoved).trans (.tryMoves _)
  unfold answerAckReports
  split
  · refine .inSession fun _ => ?_
    split
    · exact .refl s
    · exact hack _
  · exact .refl s

/-! ### Requests to the line unit -/

theorem keepsUnits_timebaseConfig : KeepsUnits answerTimebaseConfig := by
  intro s payload
  have hset : ∀ filter limit, limit.toNat ≤ 60000 →
      UnitsKept s { s with line := { s.line with filter := filter, stallLimit := limit } } :=
    fun filter _ hl => .of_line rfl rfl fun h => h.configure filter hl
  unfold answerTimebaseConfig
  split
  · refine .inSession fun _ => ?_
    split
    · exact .refl s
    dsimp only
    split
    · exact .refl s
    · next hl => exact (hset _ _ (Nat.le_of_not_lt hl)).trans (.applyLineSettings _)
  · exact .refl s

theorem keepsUnits_setLine : KeepsUnits answerSetLine := by
  intro s payload
  unfold answerSetLine
  split
  · exact .inSession fun _ => .presetLine s _
  · exact .refl s

theorem keepsUnits_readTime : KeepsUnits answerReadTime := by
  refine keepsUnits_of_view fun s payload => ?_
  unfold answerReadTime
  split
  · exact unitView_inSession rfl
  · rfl

/-! ### Requests to the capture unit -/

theorem keepsUnits_captureConfig : KeepsUnits answerCaptureConfig := by
  intro s payload
  unfold answerCaptureConfig
  split
  · refine .inSession fun _ => ?_
    split
    · exact .refl s
    split
    · exact .configureCapture s _ _ _ _
    · exact .refl s
  · exact .refl s

theorem keepsUnits_routeAdd : KeepsUnits answerRouteAdd := by
  intro s payload
  have hadd : ∀ r, UnitsKept s (addRoute s r).2 := fun r => by
    unfold addRoute
    split
    · exact .refl s
    · next hr =>
      split
      · exact .refl s
      · exact .of_capture rfl fun hs => hs.addRoute _ hr
  unfold answerRouteAdd
  split
  · refine .inSession fun _ => ?_
    split
    · exact hadd _
    · exact .refl s
  · exact .refl s

theorem keepsUnits_routeRemove : KeepsUnits answerRouteRemove := by
  intro s payload
  unfold answerRouteRemove
  split
  · refine .inSession fun _ => ?_
    split
    · exact .refl s
    split
    · exact .refl s
    · exact .of_capture rfl fun hs => hs.removeRoute _
  · exact .refl s

theorem keepsUnits_routeList : KeepsUnits answerRouteList := by
  refine keepsUnits_of_view fun s payload => ?_
  unfold answerRouteList
  split
  · exact unitView_inSession rfl
  · rfl

theorem keepsUnits_readCaptures : KeepsUnits answerReadCaptures := by
  intro s payload
  unfold answerReadCaptures
  split
  · refine .inSession fun _ => ?_
    split
    · exact .refl s
    next hm =>
    split
    · exact .refl s
    · exact .readCaptures s fun h => hm (.inl h)
  · exact .refl s

theorem keepsUnits_captureStream : KeepsUnits answerCaptureStream := by
  intro s payload
  unfold answerCaptureStream
  split
  · refine .inSession fun ho => ?_
    split
    · exact .refl s
    · exact .setStreaming s _ ho
  · exact .refl s

/-! ## Every command -/

/-- The outcome is a next state, in which both units keep their laws. -/
def KeptNext (s : State) (o : Host.Outcome State Fault Refusal) : Prop :=
  ∃ t, o = .next t ∧ UnitsKept s t

theorem KeptNext.serve {s : State} {k : Byte} {answer : State → List Byte → Answer × State}
    (h : KeepsUnits answer) : KeptNext s (.next (serveRequest k answer s)) :=
  ⟨_, rfl, .serveRequest h k s⟩

/-- Where a happening is not there, nothing changes (log 2). -/
theorem KeptNext.happening {s t : State} {p : Prop} [Decidable p] (h : p → UnitsKept s t) :
    KeptNext s (.next (if p then t else s)) :=
  ⟨_, rfl, by split; exacts [h ‹p›, .refl s]⟩

theorem KeptNext.of_view {s t : State} {p : Prop} [Decidable p] (h : unitView t = unitView s) :
    KeptNext s (.next (if p then t else s)) := .happening fun _ => .of_view h

/-- Every command has a next state, and both units keep their laws. -/
theorem exec_keptNext (i : Instr) (s : State) : KeptNext s (exec i s) := by
  cases i with
  | ident => exact .serve keepsUnits_ident
  | status => exact .serve keepsUnits_status
  | openSession => exact .serve keepsUnits_openSession
  | closeSession => exact .serve keepsUnits_closeSession
  | ackReports => exact .serve keepsUnits_ackReports
  | restart => exact .serve keepsUnits_restart
  | cutoff => exact .serve keepsUnits_cutoff
  | cutoffRelease => exact .serve keepsUnits_cutoffRelease
  | setChannelOptions => exact .serve keepsUnits_setChannelOptions
  | defineProgram => exact .serve keepsUnits_defineProgram
  | appendSteps => exact .serve keepsUnits_appendSteps
  | sealProgram => exact .serve keepsUnits_sealProgram
  | discardProgram => exact .serve keepsUnits_discardProgram
  | deleteProgram => exact .serve keepsUnits_deleteProgram
  | programInfo => exact .serve keepsUnits_programInfo
  | programRead => exact .serve keepsUnits_programRead
  | bind => exact .serve keepsUnits_bind
  | enable => exact .serve (keepsUnits_channelRequest unitView_enableChannel)
  | stop => exact .serve (keepsUnits_channelRequest unitView_stopChannel)
  | halt => exact .serve (keepsUnits_channelRequest unitView_haltRequest)
  | fire => exact .serve keepsUnits_fire
  | channelStatus => exact .serve (keepsUnits_channelRequest fun _ _ => rfl)
  | timebaseConfig => exact .serve keepsUnits_timebaseConfig
  | setLine => exact .serve keepsUnits_setLine
  | readTime => exact .serve keepsUnits_readTime
  | captureConfig => exact .serve keepsUnits_captureConfig
  | routeAdd => exact .serve keepsUnits_routeAdd
  | routeRemove => exact .serve keepsUnits_routeRemove
  | routeList => exact .serve keepsUnits_routeList
  | readCaptures => exact .serve keepsUnits_readCaptures
  | captureStream => exact .serve keepsUnits_captureStream
  | reject =>
    refine ⟨_, rfl, ?_⟩
    split
    · exact .refl s
    · next htake =>
      exact .of_view ((unitView_concludeRequest _ _ _).trans (takeRequest_unitView htake))
  | frameComplete b => exact .of_view (unitView_receive b s)
  | invalidLenByte b => exact .of_view (unitView_receive b s)
  | receivedByte b => exact .of_view (unitView_receive b s)
  | interByteGapTimeout => exact .of_view rfl
  | transmissionEnd =>
    refine ⟨_, rfl, ?_⟩
    split
    · exact .refl s
    split
    · exact .endTransmission s _
    · exact .refl s
  | hardReset cause baud1 baud0 =>
    exact .happening fun _ => ⟨fun _ => lineLaw_init, fun _ => captureLaw_init rfl⟩
  | startUpEnd =>
    exact .happening fun _ => (UnitsKept.endStartUp s).then_view (unitView_arbitrate _)
  | lineRise => exact .happening fun _ => (UnitsKept.riseLine s).then_view (unitView_arbitrate _)
  | lineFall => exact .happening fun _ => .fallLine s
  | lineStallDetected =>
    exact .happening fun h => (UnitsKept.stallLine s h).then_view (unitView_arbitrate _)
  | captureEdge i =>
    refine ⟨_, rfl, ?_⟩
    split
    · next h =>
      exact (UnitsKept.acceptEdge s i _ (mode_ne_off_of_inputChange h)).then_view
        (unitView_arbitrate _)
    · exact .refl s
  | cutoffNAssertion =>
    have htrip : ∀ k, unitView (trip { s with cutoff := k } .pin) = unitView s :=
      fun k => unitView_trip _ _
    exact .of_view ((unitView_arbitrate _).trans (htrip _))
  | cutoffNDeassertion => exact .of_view rfl
  | silenceExpiry =>
    exact .happening fun _ => ((UnitsKept.of_view (unitView_trip s .silence)).trans
      (.closeSession _ .silence)).then_view (unitView_arbitrate _)
  | resendExpiry => exact .of_view (unitView_arbitrate _)
  | headEntryDue c => exact .of_view (by simp)
  | stepEnd c =>
    refine ⟨_, rfl, .of_view ?_⟩
    split
    · split <;> simp
    · rfl
  | holdUntilTimeout c =>
    refine ⟨_, rfl, .of_view ?_⟩
    split
    · split <;> simp
    · rfl
  | holdUntilEdge c =>
    refine ⟨_, rfl, .of_view ?_⟩
    split <;> simp
  | routeTrigger c =>
    refine ⟨_, rfl, .of_view ?_⟩
    split <;> simp
  | stallNotice c =>
    refine ⟨_, rfl, .of_view ?_⟩
    split <;> simp
  | linePresetTaken c =>
    refine ⟨_, rfl, .of_view ?_⟩
    split <;> rfl
  | entryOverdueDiscard c => exact .of_view (by simp)
  | timeBaseTick pins => exact ⟨_, rfl, .tick s pins⟩

/-- Settles O58: the front command is run on a state with the same view, and every command keeps the
laws of both units. -/
theorem stepKeepsInputUnitLaws : Obligations.StepKeepsInputUnitLaws := by
  intro s t hstep
  show UnitsKept s t
  unfold step at hstep
  split at hstep
  · cases hstep
    exact .refl s
  · next i rest _ =>
    have hrest : UnitsKept s { s with pending := rest } := .of_view rfl
    obtain ⟨u, hu, hkept⟩ := exec_keptNext i { s with pending := rest }
    rw [hu] at hstep
    cases hstep
    exact hrest.trans hkept

/-! ## SET_LINE -/

theorem answerSetLine_of_value {s : State} {v : Word} (ho : s.session.state = .opened) :
    answerSetLine s (le32 v) =
      ({ result := .ok, fields := le32 s.line.lineBase ++ le32 (v - s.line.lineBase) },
       presetLine v s) := by
  simp only [answerSetLine, le32, inSession_of_opened ho, read32_le32]

/-- Settles O22: length, session, then the preset, which is the model's own. -/
theorem setLinePresetsLineBase : Obligations.SetLinePresetsLineBase := by
  intro s r hs hk
  have hi : Answers .setLine answerSetLine := ⟨_, rfl, fun _ => rfl⟩
  refine ⟨fun hl => ?_, fun hl hc => ?_, fun ho v hp k hkv => ?_⟩
  · exact hi.executed hs (congrArg some hk.symm) (judged_setLine.badLength _ _ hl)
  · exact hi.executed hs (congrArg some hk.symm) (judged_setLine.noSession _ _ hl hc)
  · subst hkv
    exact hi.executed hs (congrArg some hk.symm)
      (hp ▸ answerSetLine_of_value (s := popRequest s) ho)

/-! ## The end of start-up -/

theorem exec_startUpEnd_of_early {s : State} (h : s.timeBase.toNat < 5000) :
    exec .startUpEnd s = .next s := by
  simp [exec, execStartUpEnd, Config.startUpTicks, Nat.not_le_of_lt h]

theorem exec_startUpEnd_of_due {s : State} (hs : s.startUp = true) (h : 5000 ≤ s.timeBase.toNat) :
    exec .startUpEnd s = .next (arbitrate (endStartUp s)) := by
  simp [exec, execStartUpEnd, Config.startUpTicks, hs, h]

/-- Settles O39: the end of start-up is due from tick 5,000, and CUTOFF_N decides about the trip. -/
theorem startUpEndTakesThePins : Obligations.StartUpEndTakesThePins := by
  intro s hs htxd
  refine ⟨exec_startUpEnd_of_early, fun hdue s1 hs1 => ?_⟩
  rw [exec_startUpEnd_of_due hs hdue, endStartUp]
  subst hs1
  refine ⟨fun hhigh => ?_, fun hlow => ?_⟩
  · rw [if_neg (by rw [hhigh]; decide)]
    exact congrArg _ (arbitrate_of_txdLaw htxd)
  · rw [if_pos hlow]

/-! ## One tick -/

theorem sampled_sampleFilter (a : Level) (k : Option Candidate) (x : Level) :
    Sampled a k x (sampleFilter a k x) := by
  refine ⟨fun hx => if_pos hx, fun hx n hk => ?_, fun hx hk => ?_⟩
  · subst hk
    exact (if_neg hx).trans (if_pos rfl)
  · subst hk
    exact if_neg hx

/-- A count that stops at a limit. -/
theorem min_succ_eq_ite (n m : Nat) : min (n + 1) m = if n < m then n + 1 else m := by
  split <;> omega

/-- The quiet time stops at its limit (R88). -/
theorem tickQuiet_eq (q : Option Nat) :
    tickQuiet q = q.map fun n => if n < 4294967295999 then n + 1 else 4294967295999 := by
  simp only [tickQuiet, min_succ_eq_ite, Config.quietLimit]

/-- An input that is sampled, and its measurement with it (R104, R110). -/
theorem tickInput_of_level {i : CapInput} {a : Level} (h : i.level = some a) (x : Level) :
    tickInput x i =
      { i with
        candidate := sampleFilter a i.candidate x
        measure := i.measure.map fun m =>
          { m with elapsed := if m.elapsed < 16777216 then m.elapsed + 1 else 16777216 } } := by
  simp only [tickInput, h, min_succ_eq_ite, Config.measureLimit]

theorem tickInput_of_off {i : CapInput} (h : i.level = none) (x : Level) : tickInput x i = i := by
  simp only [tickInput, h]

theorem tick_of_startUp {s : State} (h : s.startUp = true) (pins : Pins) :
    tick pins s =
      { s with timeBase := s.timeBase + 1, pins := pins
               link := { s.link with
                 transmitter := tickTransmitter s.link.rate s.link.transmitter } } := by
  simp [tick, h]

theorem tick_of_running {s : State} (h : s.startUp = false) (pins : Pins) :
    tick pins s =
      { s with timeBase := s.timeBase + 1, pins := pins
               link := { s.link with
                 transmitter := tickTransmitter s.link.rate s.link.transmitter
                 listened := tickListened s.link.rate s.link.listened }
               line := tickLine pins.line s.line
               cutoff := tickCutoff pins.cutoffN s.cutoff
               capture := { s.capture with
                 inputs := Vector.ofFn fun i => tickInput pins.cap[i] s.capture.inputs[i] } } := by
  simp [tick, h]

theorem tick_input {s : State} (h : s.startUp = false) (pins : Pins) (i : Fin 4) :
    (tick pins s).input i = tickInput pins.cap[i] (s.input i) := by
  simp [tick_of_running h, State.input]

/-- Settles O40: during start-up the time base and TXD move alone; after it each unit is sampled by
its own rule. -/
theorem tickSamplesAndCounts : Obligations.TickSamplesAndCounts := by
  intro s pins
  refine ⟨tick pins s, rfl, ?_⟩
  have htransmitter : ∀ rate t, tickTransmitter rate t = (match t with
      | .idle => .idle
      | .sending f left => .sending f (left - rate.bitsPerSecond)) := fun rate t => by
    cases t <;> rfl
  by_cases hs : s.startUp = true
  · rw [tick_of_startUp hs]
    exact ⟨rfl, htransmitter _ _, fun _ => ⟨rfl, rfl, rfl, rfl⟩, fun h => by simp [hs] at h⟩
  · have hs : s.startUp = false := by simpa using hs
    have hinput := tick_input hs pins
    rw [tick_of_running hs] at hinput ⊢
    refine ⟨rfl, htransmitter _ _, fun h => by simp [hs] at h, fun _ => ⟨rfl, ?_,
      sampled_sampleFilter _ _ _, rfl, sampled_sampleFilter _ _ _, rfl, fun i => ?_⟩⟩
    · rw [← tickQuiet_eq]
      rfl
    · rw [hinput]
      refine ⟨fun hoff => tickInput_of_off hoff _, fun a ha => ?_⟩
      rw [tickInput_of_level ha]
      exact ⟨rfl, sampled_sampleFilter _ _ _⟩

/-! ## The line: edges, stalls and settings -/

/-- A candidate that has not been sampled on filter + 1 ticks waits (R89). -/
theorem acceptedChange_of_early {candidate : Option Candidate} {filter : Nat}
    (h : ∀ k ∈ candidate, k.count ≤ filter) : acceptedChange candidate filter = none := by
  cases candidate with
  | none => rfl
  | some k => exact if_neg (by have := h k rfl; omega)

theorem acceptedChange_of_complete {level : Level} {n filter : Nat} (h : filter < n) :
    acceptedChange (some { level := level, count := n }) filter = some level := if_pos h

theorem nextPeriod_of_untrusted {now : Word} {l : LineUnit}
    (h : l.lastEdge = none ∨ l.freshEdges = 0) : nextPeriod now l = l.period := by
  unfold nextPeriod
  rcases h with h | h
  · rw [h]
  · split
    · rw [h, if_neg (by decide)]
    · rfl

theorem nextPeriod_of_trusted {now e : Word} {l : LineUnit} {q : Nat}
    (he : l.lastEdge = some e) (hq : l.quiet = some q) (h : 1 ≤ l.freshEdges) :
    nextPeriod now l = some (if q < 4294967296 then now - e else 4294967295) := by
  rw [nextPeriod, he]
  dsimp only
  rw [if_pos h, hq, Option.getD_some]
  by_cases hlong : q < 4294967296
  · rw [if_pos hlong, if_neg (Nat.not_le_of_lt hlong)]
  · rw [if_neg hlong, if_pos (Nat.le_of_not_lt hlong)]

/-- What the stall point is: MOVING, detection on, and the quiet time at the limit (R91, R96). -/
theorem stallReached_iff (l : LineUnit) :
    stallReached l = true ↔ l.lineState = .moving ∧ l.stallLimit ≠ 0 ∧
      ∃ q, l.quiet = some q ∧ l.stallLimit.toNat * 1000 ≤ q := by
  unfold stallReached
  cases l.quiet <;> simp [and_assoc]

section
variable {s : State}

theorem riseLine_of_not_stalled (h : s.line.lineState ≠ .stalled) :
    riseLine s = { s with line := s.line.rise s.timeBase } := if_neg h

/-- An edge that ends a stall is told with the duration of the stall (R93). -/
theorem riseLine_of_stalled {q : Nat} (h : s.line.lineState = .stalled)
    (hq : s.line.quiet = some q) :
    riseLine s =
      { s with line := s.line.rise s.timeBase
               session := s.session.submit (.lineResumed (BitVec.ofNat 32 (q / 1000))) } := by
  rw [riseLine, if_pos h, stallDuration, hq]
  rfl

theorem exec_lineRise_of_high
    (h : acceptedChange s.line.candidate s.line.filter.toNat = some .high) :
    exec .lineRise s = .next (arbitrate (riseLine s)) := congrArg _ (if_pos h)

theorem exec_lineRise_of_not_high
    (h : acceptedChange s.line.candidate s.line.filter.toNat ≠ some .high) :
    exec .lineRise s = .next s := congrArg _ (if_neg h)

theorem exec_lineFall_of_low
    (h : acceptedChange s.line.candidate s.line.filter.toNat = some .low) :
    exec .lineFall s = .next { s with line := { s.line with level := .low, candidate := none } } :=
  congrArg _ (if_pos h)

theorem exec_lineFall_of_not_low
    (h : acceptedChange s.line.candidate s.line.filter.toNat ≠ some .low) :
    exec .lineFall s = .next s := congrArg _ (if_neg h)

end

/-- Settles O41: the filter decides about an edge and the stall point about a stall; the line
afterwards is told field by field. -/
theorem lineEdgesAndStall : Obligations.LineEdgesAndStall := by
  intro s htxd
  refine ⟨fun k hk hearly => ?early, fun n hk hn => ?fall,
    fun n period hk hn hperiod l hl => ?rise, fun q e hmoving hq he => ?stall⟩
  case early =>
    have hwaits : acceptedChange s.line.candidate s.line.filter.toNat = none :=
      acceptedChange_of_early fun x hx => by
        obtain rfl : k = x := Option.some.inj (hk.symm.trans hx)
        exact hearly
    exact ⟨exec_lineRise_of_not_high (by rw [hwaits]; exact nofun),
      exec_lineFall_of_not_low (by rw [hwaits]; exact nofun)⟩
  case fall =>
    exact exec_lineFall_of_low (by rw [hk]; exact acceptedChange_of_complete hn)
  case rise =>
    have hnext : nextPeriod s.timeBase s.line = period := by
      rcases hperiod with ⟨h, rfl⟩ | ⟨e, q, he, hq, hfresh, rfl⟩
      · exact nextPeriod_of_untrusted h
      · exact nextPeriod_of_trusted he hq hfresh
    have hline : s.line.rise s.timeBase = l := by
      rw [hl, LineUnit.rise, hnext, min_succ_eq_ite]
    rw [exec_lineRise_of_high (by rw [hk]; exact acceptedChange_of_complete hn)]
    refine ⟨fun hstate => ?_, fun q hstate hq => ?_⟩
    · rw [riseLine_of_not_stalled hstate, hline]
      exact congrArg _ (arbitrate_of_txdLaw htxd)
    · rw [riseLine_of_stalled hstate hq, hline]
  case stall =>
    have hreached := stallReached_iff s.line
    refine ⟨fun hnot => congrArg _ (if_neg fun h => ?_), fun hlimit hlong => ?_⟩
    · obtain ⟨_, hlimit, q', hq', hlong⟩ := hreached.mp h
      obtain rfl : q = q' := Option.some.inj (hq.symm.trans hq')
      rcases hnot with hnot | hnot
      · exact hlimit hnot
      · omega
    · refine congrArg _ ((if_pos (hreached.mpr ⟨hmoving, hlimit, q, hq, hlong⟩)).trans ?_)
      rw [stallLine, he]
      rfl

/-! ## TIMEBASE_CONFIG -/

section
variable {s : State}

theorem applyLineFilter_of_high
    (h : acceptedChange s.line.candidate s.line.filter.toNat = some .high) :
    applyLineFilter s = riseLine s := by rw [applyLineFilter, h]

theorem applyLineFilter_of_low
    (h : acceptedChange s.line.candidate s.line.filter.toNat = some .low) :
    applyLineFilter s = { s with line := { s.line with level := .low, candidate := none } } := by
  rw [applyLineFilter, h]
  rfl

theorem applyLineFilter_of_early
    (h : acceptedChange s.line.candidate s.line.filter.toNat = none) :
    applyLineFilter s = s := by rw [applyLineFilter, h]

/-- The limit leaves the line state where it neither ends nor declares a stall (R96). -/
theorem applyStallLimit_of_rest (hstalled : ¬ (s.line.lineState = .stalled ∧ s.line.stallLimit = 0))
    (h : ¬ stallReached s.line = true) : applyStallLimit s = s :=
  (if_neg hstalled).trans (if_neg h)

theorem applyStallLimit_of_stalled (h : s.line.lineState = .stalled)
    (hlimit : s.line.stallLimit = 0) :
    applyStallLimit s = { s with line := { s.line with lineState := .moving } } :=
  if_pos ⟨h, hlimit⟩

/-- A limit already passed declares the stall at once (R91, R96). -/
theorem applyStallLimit_of_reached (h : stallReached s.line = true) :
    applyStallLimit s = stallLine s := by
  refine (if_neg fun ⟨hstalled, _⟩ => ?_).trans (if_pos h)
  rw [moving_of_stallReached h] at hstalled
  cases hstalled

/-- The limit keeps the candidate and the filter. -/
theorem applyStallLimit_filter :
    (applyStallLimit s).line.candidate = s.line.candidate ∧
      (applyStallLimit s).line.filter = s.line.filter := by
  unfold applyStallLimit
  split
  · exact ⟨rfl, rfl⟩
  · split <;> exact ⟨rfl, rfl⟩

/-- After an accepted edge the line is MOVING with no quiet time, and no limit moves it (R90,
R96). -/
theorem applyStallLimit_riseLine : applyStallLimit (riseLine s) = riseLine s := by
  have hline : (riseLine s).line = s.line.rise s.timeBase := by
    unfold riseLine
    dsimp only
    split <;> rfl
  refine applyStallLimit_of_rest (fun h => ?_) fun h => ?_
  · rw [hline] at h
    obtain ⟨hstalled, _⟩ := h
    cases hstalled
  · rw [stallReached_iff, hline] at h
    obtain ⟨_, hlimit, q, hq, hlong⟩ := h
    obtain rfl : 0 = q := Option.some.inj hq
    have hzero : s.line.stallLimit.toNat * 1000 ≤ 0 := hlong
    exact hlimit (BitVec.eq_of_toNat_eq (by simp; omega))

theorem applyLineSettings_of_not_high
    (h : acceptedChange s.line.candidate s.line.filter.toNat ≠ some .high) :
    applyLineSettings s = applyStallLimit (applyLineFilter s) := if_neg h

/-- A candidate that waits leaves the limit to act alone (R95). -/
theorem applyLineSettings_of_early
    (h : ∀ k ∈ s.line.candidate, k.count ≤ s.line.filter.toNat) :
    applyLineSettings s = applyStallLimit s := by
  have hwaits := acceptedChange_of_early h
  rw [applyLineSettings_of_not_high (by rw [hwaits]; exact nofun), applyLineFilter_of_early hwaits]

/-- A falling candidate that is complete moves the accepted level, and then the limit acts (R95). -/
theorem applyLineSettings_of_fall {n : Nat}
    (hc : s.line.candidate = some { level := .low, count := n }) (hn : s.line.filter.toNat < n) :
    applyLineSettings s =
      applyStallLimit { s with line := { s.line with level := .low, candidate := none } } := by
  have hlow : acceptedChange s.line.candidate s.line.filter.toNat = some .low := by
    rw [hc]
    exact acceptedChange_of_complete hn
  rw [applyLineSettings_of_not_high (by rw [hlow]; exact nofun), applyLineFilter_of_low hlow]

end

/-! ### A rising candidate that the new filter completes -/

/-- A free value has been used, here for the order in which two settings act (log 9, log 25). -/
def freeUsed (s : State) : State := { s with freeCount := s.freeCount + 1 }

/-- And the edge has been counted (R90). -/
def edgeCounted (s : State) : State := { freeUsed s with line := s.line.rise s.timeBase }

section
variable {s : State} {n : Nat}

/-- The two orders in which a rising candidate and the limit may act, as a free value says (R95,
R96; log 9): with the filter before it, the limit finds nothing to do. -/
theorem applyLineSettings_of_rise (hc : s.line.candidate = some { level := .high, count := n })
    (hn : s.line.filter.toNat < n) :
    applyLineSettings s =
      if Config.freeBit s.freeCount = true then riseLine (freeUsed s)
      else riseLine (applyStallLimit (freeUsed s)) := by
  have hhigh : acceptedChange s.line.candidate s.line.filter.toNat = some .high := by
    rw [hc]
    exact acceptedChange_of_complete hn
  have hlater : applyLineFilter (applyStallLimit (freeUsed s)) =
      riseLine (applyStallLimit (freeUsed s)) := by
    obtain ⟨hcandidate, hfilter⟩ := applyStallLimit_filter (s := freeUsed s)
    refine applyLineFilter_of_high ?_
    rw [hcandidate, hfilter]
    exact hhigh
  rw [← hlater, ← applyStallLimit_riseLine (s := freeUsed s),
    ← applyLineFilter_of_high (s := freeUsed s) hhigh]
  exact if_pos hhigh

/-- Where the limit has nothing to do the order does not show. -/
theorem applyLineSettings_rise_of_rest (hc : s.line.candidate = some { level := .high, count := n })
    (hn : s.line.filter.toNat < n) (hrest : ¬ stallReached s.line = true)
    (hstate : s.line.lineState ≠ .stalled) : applyLineSettings s = edgeCounted s := by
  rw [applyLineSettings_of_rise hc hn,
    applyStallLimit_of_rest (s := freeUsed s) (fun h => hstate h.1) hrest, ite_self]
  exact riseLine_of_not_stalled hstate

/-- A STALLED line under a limit above 0 is resumed by the edge (R93). -/
theorem applyLineSettings_rise_of_stalled {q : Nat}
    (hc : s.line.candidate = some { level := .high, count := n }) (hn : s.line.filter.toNat < n)
    (hstate : s.line.lineState = .stalled) (hlimit : s.line.stallLimit ≠ 0)
    (hq : s.line.quiet = some q) :
    applyLineSettings s =
      { edgeCounted s with
        session := s.session.submit (.lineResumed (BitVec.ofNat 32 (q / 1000))) } := by
  have hrest : ¬ stallReached s.line = true := fun h => by
    rw [moving_of_stallReached h] at hstate
    cases hstate
  rw [applyLineSettings_of_rise hc hn,
    applyStallLimit_of_rest (s := freeUsed s) (fun h => hlimit h.2) hrest, ite_self]
  exact riseLine_of_stalled hstate hq

/-- A STALLED line under limit 0 is resumed by the edge, or by the limit before it, and then without
LINE_RESUMED (R93, R96). -/
theorem applyLineSettings_rise_of_resumed {q : Nat}
    (hc : s.line.candidate = some { level := .high, count := n }) (hn : s.line.filter.toNat < n)
    (hstate : s.line.lineState = .stalled) (hlimit : s.line.stallLimit = 0)
    (hq : s.line.quiet = some q) :
    applyLineSettings s =
      if Config.freeBit s.freeCount = true then
        { edgeCounted s with
          session := s.session.submit (.lineResumed (BitVec.ofNat 32 (q / 1000))) }
      else edgeCounted s := by
  rw [applyLineSettings_of_rise hc hn, riseLine_of_stalled (s := freeUsed s) hstate hq,
    applyStallLimit_of_stalled (s := freeUsed s) hstate hlimit,
    riseLine_of_not_stalled (by exact nofun)]
  rfl

/-- A limit already passed declares no stall after the edge; before it, the edge ends the stall at
once (R91, R93). -/
theorem applyLineSettings_rise_of_reached {q : Nat}
    (hc : s.line.candidate = some { level := .high, count := n }) (hn : s.line.filter.toNat < n)
    (hreached : stallReached s.line = true) (hq : s.line.quiet = some q) :
    applyLineSettings s =
      if Config.freeBit s.freeCount = true then edgeCounted s
      else
        { edgeCounted s with
          line := LineUnit.rise s.timeBase
            { s.line with lineState := .stalled, period := some 0, freshEdges := 0 }
          session := (s.session.submit
            (.lineStall s.line.lineBase (s.line.lastEdge.getD 0))).submit
              (.lineResumed (BitVec.ofNat 32 (q / 1000)))
          channels := s.channels.map fun ch =>
            if ch.lineBound then { ch with stallNotices := ch.stallNotices + 1 } else ch } := by
  have hstate : s.line.lineState ≠ .stalled := by
    rw [moving_of_stallReached hreached]
    decide
  rw [applyLineSettings_of_rise hc hn, riseLine_of_not_stalled (s := freeUsed s) hstate,
    applyStallLimit_of_reached (s := freeUsed s) hreached,
    riseLine_of_stalled (s := stallLine (freeUsed s)) rfl hq]
  rfl

end

theorem filterOf_of_small {f : Byte} (h : f.toNat ≤ 15) : filterOf f = some (f.setWidth 4) :=
  if_pos (Nat.lt_succ_of_le h)

theorem filterOf_of_large {f : Byte} (h : 15 < f.toNat) : filterOf f = none :=
  if_neg (Nat.not_lt_of_le h)

theorem setWidth_toNat_of_small {f : Byte} (h : f.toNat ≤ 15) :
    (f.setWidth 4).toNat = f.toNat := by
  rw [BitVec.toNat_setWidth]
  exact Nat.mod_eq_of_lt (by omega)

theorem answerTimebaseConfig_of_out {s : State} {f : Byte} {limit : Half}
    (ho : s.session.state = .opened) (h : 15 < f.toNat ∨ 60000 < limit.toNat) :
    answerTimebaseConfig s (f :: le16 limit) = (lineAnswer s .badValue, s) := by
  simp only [answerTimebaseConfig, le16, inSession_of_opened ho, read16_le16]
  by_cases hf : 15 < f.toNat
  · rw [filterOf_of_large hf]
  · rw [filterOf_of_small (Nat.le_of_not_lt hf)]
    exact if_pos (h.resolve_left hf)

theorem answerTimebaseConfig_of_fields {s : State} {f : Byte} {limit : Half}
    (ho : s.session.state = .opened) (hf : f.toNat ≤ 15) (hl : limit.toNat ≤ 60000) :
    answerTimebaseConfig s (f :: le16 limit) =
      (lineAnswer (applyLineSettings
          { s with line := { s.line with filter := f.setWidth 4, stallLimit := limit } }) .ok,
        applyLineSettings
          { s with line := { s.line with filter := f.setWidth 4, stallLimit := limit } }) := by
  simp only [answerTimebaseConfig, le16, inSession_of_opened ho, read16_le16, filterOf_of_small hf]
  exact if_neg (Nat.not_lt_of_le hl)

section
variable {s t u : State} {r : Request} {f code : Byte} {limit : Half}

/-- TIMEBASE_CONFIG in range: the settings act from the state in which both are set, and the reply
tells them with the line state they leave (R94). -/
theorem Executed.of_lineSettings (hs : Serves s r) (hk : r.kind = 0x28)
    (ho : s.session.state = .opened) (hp : r.payload = f :: le16 limit) (hf : f.toNat ≤ 15)
    (hl : limit.toNat ≤ 60000)
    (ht : applyLineSettings { popRequest s with
      line := { s.line with filter := f.setWidth 4, stallLimit := limit } } = t)
    (hfilter : t.line.filter = f.setWidth 4) (hlimit : t.line.stallLimit = limit)
    (hcode : t.line.lineState.code = code) :
    Executed .timebaseConfig s r .ok ([f] ++ le16 limit ++ [code]) t := by
  have hi : Answers .timebaseConfig answerTimebaseConfig := ⟨_, rfl, fun _ => rfl⟩
  have hbyte : byteOf t.line.filter.toNat = f := by
    rw [hfilter, setWidth_toNat_of_small hf]
    simp [byteOf]
  refine hi.executed hs (congrArg some hk.symm) ?_
  rw [hp, answerTimebaseConfig_of_fields (s := popRequest s) ho hf hl]
  show (lineAnswer (applyLineSettings _) _, applyLineSettings _) = _
  rw [popRequest_line, ht, lineAnswer, hbyte, hlimit, hcode]

/-- Where the limit acts last, on `u`, it leaves the line state, ends a stall or declares one
(R96). -/
theorem Executed.of_stallLimit (hs : Serves s r) (hk : r.kind = 0x28)
    (ho : s.session.state = .opened) (hp : r.payload = f :: le16 limit) (hf : f.toNat ≤ 15)
    (hl : limit.toNat ≤ 60000)
    (ht : applyLineSettings { popRequest s with
      line := { s.line with filter := f.setWidth 4, stallLimit := limit } } = applyStallLimit u)
    (hfilter : u.line.filter = f.setWidth 4) (hlimit : u.line.stallLimit = limit) :
    (¬ stallReached u.line = true → ¬ (u.line.lineState = .stalled ∧ limit = 0) →
      Executed .timebaseConfig s r .ok ([f] ++ le16 limit ++ [u.line.lineState.code]) u) ∧
    (u.line.lineState = .stalled → limit = 0 →
      Executed .timebaseConfig s r .ok ([f] ++ le16 limit ++ [1])
        { u with line := { u.line with lineState := .moving } }) ∧
    (stallReached u.line = true →
      Executed .timebaseConfig s r .ok ([f] ++ le16 limit ++ [2]) (stallLine u)) := by
  have hexec {t : State} {code : Byte} (h : applyStallLimit u = t) :=
    Executed.of_lineSettings (code := code) hs hk ho hp hf hl (ht.trans h)
  refine ⟨fun hnot hrest => ?_, fun hstalled hzero => ?_, fun hreached => ?_⟩
  · exact hexec (applyStallLimit_of_rest (hlimit ▸ hrest) hnot) hfilter hlimit rfl
  · exact hexec (applyStallLimit_of_stalled hstalled (hlimit.trans hzero)) hfilter hlimit rfl
  · exact hexec (applyStallLimit_of_reached hreached) hfilter hlimit rfl

end

/-- Settles O21: without a rising candidate the limit acts on what the filter leaves; with one, the
free value of log 9 is the order in which the two act. -/
theorem timebaseConfigActs : Obligations.TimebaseConfigActs := by
  intro s r f limit hs hk ho hp
  refine ⟨fun hout => ?out, fun hf hl s1 reached stall noticed stalled hs1 hreached hstall hnoticed
    hstalled => ⟨fun s2 hs2 => ?noRise, fun n s3 hc hn hs3 => ?rise⟩⟩
  case out =>
    have hi : Answers .timebaseConfig answerTimebaseConfig := ⟨_, rfl, fun _ => rfl⟩
    exact hi.executed hs (congrArg some hk.symm)
      (hp ▸ answerTimebaseConfig_of_out (s := popRequest s) ho hout)
  all_goals
    have hreach : stallReached s1.line = true ↔ reached := by
      rw [stallReached_iff, hreached, hs1]
    have hfilter : s1.line.filter.toNat = f.toNat := by rw [hs1, setWidth_toNat_of_small hf]
    subst hs1 hstall hnoticed hstalled
  case noRise =>
    rcases hs2 with ⟨hearly, rfl⟩ | ⟨m, hc, hm, rfl⟩
    · obtain ⟨hrest, hresumed, hstalls⟩ := Executed.of_stallLimit hs hk ho hp hf hl
        (applyLineSettings_of_early (by rwa [hfilter])) rfl rfl
      exact ⟨fun hnot => hrest (hnot ∘ hreach.mp), hresumed, hstalls ∘ hreach.mpr⟩
    · obtain ⟨hrest, hresumed, hstalls⟩ := Executed.of_stallLimit hs hk ho hp hf hl
        (applyLineSettings_of_fall hc (by rwa [hfilter])) rfl rfl
      exact ⟨fun hnot => hrest (hnot ∘ hreach.mp), hresumed, hstalls ∘ hreach.mpr⟩
  case rise =>
    rw [← hfilter] at hn
    subst hs3
    have hexec {t : State} := Executed.of_lineSettings (t := t) (code := 1) hs hk ho hp hf hl
    refine ⟨fun hnot hmoves => ?_, fun q resumed hq hresumed =>
      ⟨fun hstalled hne => ?_, fun hstalled hzero => ⟨Config.freeBit s.freeCount, ?_⟩,
        fun hr => ⟨Config.freeBit s.freeCount, ?_⟩⟩⟩
    · exact hexec (applyLineSettings_rise_of_rest hc hn (hnot ∘ hreach.mp) hmoves) rfl rfl rfl
    all_goals subst hresumed
    · exact hexec (applyLineSettings_rise_of_stalled hc hn hstalled hne hq) rfl rfl rfl
    · refine hexec (applyLineSettings_rise_of_resumed hc hn hstalled hzero hq) ?_ ?_ ?_
      all_goals split <;> rfl
    · refine hexec (applyLineSettings_rise_of_reached hc hn (hreach.mpr hr) hq) ?_ ?_ ?_
      all_goals split <;> rfl

end Sys2Proof.Machine

namespace Sys2Proof.Machine

/-! ## An accepted capture edge -/

theorem edgeTo_eq_ite (level : Level) :
    edgeTo level = if level = .high then .rise else .fall := by cases level <;> rfl

/-- What an accepted edge logs leaves every field of the input but its measurement (R107 to
R109). -/
theorem offerToLog_input (now : Word) (e : Edge) (i : CapInput) :
    (offerToLog now e i).2 = { i with measure := (offerToLog now e i).2.measure } := by
  have hwidth : ∀ kind opening, (measureWidth kind opening now e i).2 =
      { i with measure := (measureWidth kind opening now e i).2.measure } := fun _ _ => by
    unfold measureWidth
    split <;> rfl
  have hperiod : ∀ timed, (measurePeriod timed now e i).2 =
      { i with measure := (measurePeriod timed now e i).2.measure } := fun _ => by
    unfold measurePeriod
    split <;> rfl
  unfold offerToLog
  split
  · rfl
  · rfl
  · exact hwidth _ _
  · exact hwidth _ _
  · exact hperiod _
  · exact hperiod _

/-- The edge accepted and offered to the log, before it is handed on to the channels (R104,
R106). -/
def logEdge (s : State) (i : Fin 4) (level : Level) : State :=
  let o := offerToLog s.timeBase (edgeTo level)
    { s.input i with level := some level, candidate := none }
  match o.1 with
  | some l => logEvent (s.setInput i o.2) i l
  | none => s.setInput i o.2

/-- An edge handed on: delivered along the routes and offered to the watches (R106, R117, R118). -/
def handOn (i : Fin 4) (e : Edge) (s : State) : State :=
  allChannels.foldl (offerEdge i e) (allRoutes.foldl (deliverRoute i e) s)

theorem acceptEdge_eq_handOn (s : State) (i : Fin 4) (level : Level) :
    acceptEdge s i level = handOn i (edgeTo level) (logEdge s i level) := rfl

/-- What is offered to a channel is told by its watch and the moment (R118). -/
theorem offeredTo_congr {i : Fin 4} {e : Edge} {s u : State} {c : Fin 8}
    (hfiring : (u.chan c).firing = (s.chan c).firing) (hstamp : stampNow u = stampNow s) :
    offeredTo i e u c = offeredTo i e s c := by
  unfold offeredTo
  rw [hfiring, hstamp]

/-- Handing an edge on touches the channels and nothing else. -/
theorem handOn_eq (i : Fin 4) (e : Edge) (s : State) :
    handOn i e s = { s with channels := (handOn i e s).channels } := by
  obtain ⟨_, hroutes⟩ := foldl_deliverRoute i e allRoutes s 0
  obtain ⟨_, hoffers⟩ := foldl_offerEdge i e allChannels (by decide)
    (allRoutes.foldl (deliverRoute i e) s) 0
  rw [hroutes] at hoffers
  unfold handOn
  rw [hroutes]
  exact hoffers

/-- What each channel is handed: a trigger of each matching route, in route id order, and the edge
itself for an armed watch of the input (R117, R118). -/
theorem handOn_chan (i : Fin 4) (e : Edge) (s : State) (c : Fin 8) :
    (handOn i e s).chan c =
      { s.chan c with
        triggers := (s.chan c).triggers ++ allRoutes.flatMap (routedTo i e s c)
        offers := (s.chan c).offers ++ offeredTo i e s c } := by
  obtain ⟨hroutes, hkeep⟩ := foldl_deliverRoute i e allRoutes s c
  obtain ⟨hoffers, _⟩ := foldl_offerEdge i e allChannels (by decide)
    (allRoutes.foldl (deliverRoute i e) s) c
  have hall : ∀ d, d ∈ allChannels := by decide
  have hoffered : offeredTo i e (allRoutes.foldl (deliverRoute i e) s) c = offeredTo i e s c :=
    offeredTo_congr (by rw [hroutes]) (by rw [stampNow, hkeep]; rfl)
  unfold handOn
  rw [hoffers, if_pos (hall c), hoffered, hroutes]

@[simp] theorem handOn_capture (i : Fin 4) (e : Edge) (s : State) :
    (handOn i e s).capture = s.capture := by rw [handOn_eq]
@[simp] theorem handOn_session (i : Fin 4) (e : Edge) (s : State) :
    (handOn i e s).session = s.session := by rw [handOn_eq]
@[simp] theorem handOn_link (i : Fin 4) (e : Edge) (s : State) :
    (handOn i e s).link = s.link := by rw [handOn_eq]
@[simp] theorem handOn_line (i : Fin 4) (e : Edge) (s : State) :
    (handOn i e s).line = s.line := by rw [handOn_eq]
@[simp] theorem handOn_store (i : Fin 4) (e : Edge) (s : State) :
    (handOn i e s).store = s.store := by rw [handOn_eq]
@[simp] theorem handOn_cutoff (i : Fin 4) (e : Edge) (s : State) :
    (handOn i e s).cutoff = s.cutoff := by rw [handOn_eq]
@[simp] theorem handOn_input (i : Fin 4) (e : Edge) (s : State) (j : Fin 4) :
    (handOn i e s).input j = s.input j := by
  rw [State.input, handOn_capture, State.input]

section
variable (s : State) (i : Fin 4) (level : Level)

/-- The log takes the edge within the capture unit and the report queue (R119, R125). -/
theorem logEdge_eq :
    logEdge s i level =
      { s with capture := (logEdge s i level).capture
               session := (logEdge s i level).session } := by
  unfold logEdge
  dsimp only
  split
  · rw [logEvent_eq]
    rfl
  · rfl

/-- Of the capture unit, an accepted edge moves its own input's record and the log. -/
theorem logEdge_keeps :
    (logEdge s i level).capture.inputs =
        s.capture.inputs.set i (offerToLog s.timeBase (edgeTo level)
          { s.input i with level := some level, candidate := none }).2 ∧
      (logEdge s i level).capture.routes = s.capture.routes := by
  unfold logEdge
  dsimp only
  split
  · exact logEvent_keeps _ _ _
  · exact ⟨rfl, rfl⟩

theorem logEdge_input (j : Fin 4) :
    (logEdge s i level).input j =
      if j = i then (offerToLog s.timeBase (edgeTo level)
        { s.input i with level := some level, candidate := none }).2
      else s.input j := by
  rw [← setInput_input]
  exact congrArg (·[j]) (logEdge_keeps s i level).1

theorem logEdge_chan (c : Fin 8) : (logEdge s i level).chan c = s.chan c := by
  rw [logEdge_eq]
  rfl

theorem routedTo_logEdge (e : Edge) (c : Fin 8) :
    routedTo i e (logEdge s i level) c = routedTo i e s c := by
  have hroute : ∀ id, (logEdge s i level).route id = s.route id :=
    fun id => congrArg (·[id]) (logEdge_keeps s i level).2
  have hstamp : stampNow (logEdge s i level) = stampNow s := by
    rw [logEdge_eq]
    rfl
  funext id
  unfold routedTo
  rw [hroute, hstamp]

theorem offeredTo_logEdge (e : Edge) (c : Fin 8) :
    offeredTo i e (logEdge s i level) c = offeredTo i e s c := by
  rw [logEdge_eq]
  rfl

end

/-- A route goes to its channel on an edge of its input that is of its kind (R113). -/
theorem matchesEdge_eq (w : Route) (i : Fin 4) (e : Edge) (c : Fin 8) :
    (w.channel == c && w.matchesEdge i e) =
      (w.channel == c && w.input == i &&
        (w.edge == .both || (w.edge == .rise) == (e == .rise))) := by
  have hcovers : w.edge.covers e = (w.edge == .both || (w.edge == .rise) == (e == .rise)) := by
    cases w.edge <;> cases e <;> rfl
  rw [Route.matchesEdge, hcovers, Bool.and_assoc]
  rfl

theorem routedTo_of_route {i : Fin 4} {e : Edge} {s : State} {c : Fin 8} {id : Fin 16} {w : Route}
    (h : s.route id = some w) :
    routedTo i e s c id =
      if (w.channel == c && w.matchesEdge i e) = true then
        [{ route := id, input := i, edge := e, stamp := stampNow s }]
      else [] := by
  simp [routedTo, h]

/-- The routes that deliver an edge to a channel, picked from the table by id (R113, R117). -/
theorem flatMap_routedTo (i : Fin 4) (e : Edge) (s : State) (c : Fin 8) (ids : List (Fin 16)) :
    ids.flatMap (routedTo i e s c) =
      (ids.filter fun id =>
        match s.route id with
        | some w => w.channel == c && w.input == i &&
            (w.edge == .both || (w.edge == .rise) == (e == .rise))
        | none => false).map fun id =>
        { route := id, input := i, edge := e, stamp := stampNow s } := by
  induction ids with
  | nil => rfl
  | cons id ids ih =>
    rw [List.flatMap_cons, ih, List.filter_cons]
    cases hid : s.route id with
    | none => simp [routedTo, hid]
    | some w =>
      dsimp only
      rw [routedTo_of_route hid, matchesEdge_eq]
      split <;> rfl

theorem inputChange_of_early {i : CapInput} (h : ∀ k ∈ i.candidate, k.count ≤ i.filter.toNat) :
    inputChange i = none := by
  unfold inputChange
  split
  · rfl
  · exact acceptedChange_of_early h

theorem inputChange_of_complete {i : CapInput} {k : Candidate} (hon : i.mode ≠ .off)
    (hk : i.candidate = some k) (h : i.filter.toNat < k.count) :
    inputChange i = some k.level := by
  rw [inputChange, if_neg hon, hk]
  exact acceptedChange_of_complete h

/-- CAPTURE_EDGE with a complete candidate (R104 to R106). -/
theorem exec_captureEdge_of_complete {s : State} {i : Fin 4} {level : Level} {n : Nat}
    (hon : (s.input i).mode ≠ .off)
    (hk : (s.input i).candidate = some { level := level, count := n })
    (h : (s.input i).filter.toNat < n) :
    exec (.captureEdge i) s =
      .next (arbitrate (handOn i (edgeTo level) (logEdge s i level))) := by
  show execCaptureEdge i s = _
  rw [execCaptureEdge, inputChange_of_complete hon hk h]
  rfl

/-- Settles O42: the arbiter and the log leave alone what is handed on, and the routes and watches
are those of the state before the edge. -/
theorem captureEdgeIsHandedOn : Obligations.CaptureEdgeIsHandedOn := by
  intro s i level n hon hk
  refine ⟨fun hearly => ?_, fun hn edge stamp hedge hstamp => ?_⟩
  · have hnone : inputChange (s.input i) = none := inputChange_of_early fun x hx => by
      obtain rfl := Option.some.inj (hk.symm.trans hx)
      exact hearly
    show execCaptureEdge i s = _
    rw [execCaptureEdge, hnone]
  · obtain rfl : edge = edgeTo level := hedge.trans (edgeTo_eq_ite level).symm
    obtain rfl : stamp = stampNow s := hstamp
    have hinput := logEdge_input s i level
    have hkeep := logEdge_eq s i level
    refine ⟨_, exec_captureEdge_of_complete hon hk hn, ?_, ?_, fun j hj => ?_, ?_, ?_, ?_, ?_,
      fun c => ?_⟩
    · rw [arbitrate_input, handOn_input, hinput, if_pos rfl, offerToLog_input]
    · rw [arbitrate_input, handOn_input, hinput, if_pos rfl, offerToLog_input]
    · rw [arbitrate_input, handOn_input, hinput, if_neg hj]
    · rw [arbitrate_capture, handOn_capture, (logEdge_keeps s i level).2]
    · rw [arbitrate_line, handOn_line, hkeep]
    · rw [arbitrate_store, handOn_store, hkeep]
    · rw [arbitrate_cutoff, handOn_cutoff, hkeep]
    · rw [arbitrate_chan, handOn_chan, logEdge_chan, routedTo_logEdge, offeredTo_logEdge,
        flatMap_routedTo]
      rfl

/-! ## What an accepted edge logs -/

/-- The edges that EDGES mode logs (R107). -/
theorem selects_edgeTo_iff (l : LogEdges) (level : Level) :
    l.selects (edgeTo level) = true ↔
      l = .both ∨ (l = .rise ∧ level = .high) ∨ (l = .fall ∧ level = .low) := by
  cases l <;> cases level <;> decide

section
variable {now : Word} {level : Level} {i : CapInput}

theorem offerToLog_of_edges (h : i.mode = .edges) :
    offerToLog now (edgeTo level) i =
      (if i.logEdges.selects (edgeTo level) then
         some { kind := (edgeTo level).capKind, value := 0, saturated := false }
       else none, i) := by rw [offerToLog, h]

theorem offerToLog_of_widthHigh (h : i.mode = .widthHigh) :
    offerToLog now (edgeTo level) i =
      if level = .high then (none, { i with measure := some { start := now, elapsed := 0 } })
      else (i.measure.map (measured .widthHigh), { i with measure := none }) := by
  have hmode : offerToLog now (edgeTo level) i =
      measureWidth .widthHigh .rise now (edgeTo level) i := by
    rw [offerToLog, h]
  rw [hmode]
  cases level <;> rfl

theorem offerToLog_of_widthLow (h : i.mode = .widthLow) :
    offerToLog now (edgeTo level) i =
      if level = .low then (none, { i with measure := some { start := now, elapsed := 0 } })
      else (i.measure.map (measured .widthLow), { i with measure := none }) := by
  have hmode : offerToLog now (edgeTo level) i =
      measureWidth .widthLow .fall now (edgeTo level) i := by
    rw [offerToLog, h]
  rw [hmode]
  cases level <;> rfl

theorem offerToLog_of_periodRise (h : i.mode = .periodRise) :
    offerToLog now (edgeTo level) i =
      if level = .high then
        (i.measure.map (measured .period),
          { i with measure := some { start := now, elapsed := 0 } })
      else (none, i) := by
  have hmode : offerToLog now (edgeTo level) i =
      measurePeriod .rise now (edgeTo level) i := by
    rw [offerToLog, h]
  rw [hmode]
  cases level <;> rfl

theorem offerToLog_of_periodFall (h : i.mode = .periodFall) :
    offerToLog now (edgeTo level) i =
      if level = .low then
        (i.measure.map (measured .period),
          { i with measure := some { start := now, elapsed := 0 } })
      else (none, i) := by
  have hmode : offerToLog now (edgeTo level) i =
      measurePeriod .fall now (edgeTo level) i := by
    rw [offerToLog, h]
  rw [hmode]
  cases level <;> rfl

end

/-- A counter that stops at its largest value. -/
theorem satSucc_eq_ite (h : Half) : h.satSucc = if h = 65535 then 65535 else h + 1 := by
  unfold Half.satSucc
  split
  · next hmax => exact hmax
  · rfl

/-- An open measurement is logged with its exact count, or saturated (R110). -/
theorem map_measured {m : Option Measure} {kind : CapKind} {value : BitVec 24} {saturated : Bool}
    (h : ∃ x, m = some x ∧
      ((x.elapsed < 16777216 ∧ value.toNat = x.elapsed ∧ saturated = false) ∨
        (16777216 ≤ x.elapsed ∧ value.toNat = 16777215 ∧ saturated = true))) :
    m.map (measured kind) = some { kind := kind, value := value, saturated := saturated } := by
  obtain ⟨x, rfl, ⟨hlt, hvalue, rfl⟩ | ⟨hle, hvalue, rfl⟩⟩ := h
  · obtain rfl : value = BitVec.ofNat 24 x.elapsed := by bv_omega
    exact congrArg some (if_neg (Nat.not_le_of_lt hlt))
  · obtain rfl : value = BitVec.ofNat 24 16777215 := by bv_omega
    exact congrArg some (if_pos hle)

section
variable {s : State} {i : Fin 4} {level : Level} {r r' : CapInput}

theorem logEdge_of_unlogged (hr : r = { s.input i with level := some level, candidate := none })
    (h : offerToLog s.timeBase (edgeTo level) r = (none, r')) :
    logEdge s i level = s.setInput i r' := by rw [logEdge, ← hr, h]

theorem logEdge_of_logged {l : Logged}
    (hr : r = { s.input i with level := some level, candidate := none })
    (h : offerToLog s.timeBase (edgeTo level) r = (some l, r')) :
    logEdge s i level = logEvent (s.setInput i r') i l := by rw [logEdge, ← hr, h]

end

section
variable {s : State} (i : Fin 4) (l : Logged)

theorem record_of_full {cap : Capture} (h : 64 ≤ cap.log.length) (time line : Word) :
    cap.record i l time line =
      { cap with
        nextNumber := cap.nextNumber + 1
        dropCount := if cap.dropCount = 65535 then 65535 else cap.dropCount + 1
        lastDropped := some i } := by
  rw [← satSucc_eq_ite]
  exact if_pos h

theorem record_of_room {cap : Capture} (h : cap.log.length < 64) (time line : Word) :
    cap.record i l time line =
      { cap with
        log := cap.log ++
          [{ number := cap.nextNumber, input := i, kind := l.kind, time := time, line := line
             value := l.value, saturated := l.saturated }]
        nextNumber := cap.nextNumber + 1 } := if_neg (Nat.not_le_of_lt h)

/-- A dropped event moves nothing (R120, R125). -/
theorem logEvent_of_full (h : 64 ≤ s.capture.log.length) :
    logEvent s i l =
      { s with capture := s.capture.record i l s.timeBase s.line.lineBase } := if_pos h

theorem logEvent_of_room (h : s.capture.log.length < 64) :
    logEvent s i l =
      tryMoves { s with capture := s.capture.record i l s.timeBase s.line.lineBase } :=
  if_neg (Nat.not_le_of_lt h)

/-- With streaming off or no session an event that is kept stays in the log (R125). -/
theorem logEvent_of_still (h : s.capture.log.length < 64)
    (hstill : s.capture.streaming = false ∨ s.session.state = .closed) :
    logEvent s i l =
      { s with capture := s.capture.record i l s.timeBase s.line.lineBase } := by
  rw [logEvent_of_room i l h]
  rcases hstill with hoff | hclosed
  · exact tryMoves_of_off ((record_streaming _ _ _ _ _).trans hoff)
  · exact tryMoves_of_closed hclosed

/-- With streaming on and the session OPEN it sets off the moves (R125). -/
theorem movesTo_logEvent (h : s.capture.log.length < 64) (hs : s.capture.streaming = true)
    (ho : s.session.state = .opened) :
    MovesTo s.timeBase s.line.lineBase (s.capture.record i l s.timeBase s.line.lineBase) s.session
      (logEvent s i l).capture (logEvent s i l).session := by
  rw [logEvent_of_room i l h]
  exact movesTo_tryMoves
    (s := { s with capture := s.capture.record i l s.timeBase s.line.lineBase })
    ((record_streaming _ _ _ _ _).trans hs) ho

end

/-- Settles O43: the mode decides what the edge logs and what becomes of the measurement; the log
then takes the event, with the moves that follow, or drops it. -/
theorem captureEdgeIsLogged : Obligations.CaptureEdgeIsLogged := by
  intro s i level n hon hk hn m kind value saturated fresh hm hfresh logs hlogs r hr
  have hexec := exec_captureEdge_of_complete hon hk hn
  have hlink : (handOn i (edgeTo level) (logEdge s i level)).link = s.link := by
    rw [handOn_link, logEdge_eq]
  have hmode : (s.input i).mode = r.mode := by rw [hr]
  have hedges : (s.input i).logEdges = r.logEdges := by rw [hr]
  have hmeasure : m = r.measure := by rw [hm, hr]
  rw [hmode, hedges]
  subst hfresh hlogs
  refine ⟨fun m' hcase => ?unlogged, fun m' hcase => ?logged⟩
  case unlogged =>
    have hnone : offerToLog s.timeBase (edgeTo level) r = (none, { r with measure := m' }) := by
      rcases hcase with ⟨hmode, rfl, hsel⟩ | ⟨hmode, rfl, rfl⟩ | ⟨hmode, rfl, hnone, rfl⟩ |
        ⟨hmode, rfl, rfl⟩ | ⟨hmode, rfl, hnone, rfl⟩ | ⟨hmode, rfl, hnone, rfl⟩ |
        ⟨hmode, rfl, rfl⟩ | ⟨hmode, rfl, hnone, rfl⟩ | ⟨hmode, rfl, rfl⟩
      · rw [offerToLog_of_edges hmode, if_neg, hmeasure]
        rw [selects_edgeTo_iff]
        rcases hsel with h | ⟨h, rfl⟩ | ⟨h, rfl⟩ <;> simp [h]
      · exact offerToLog_of_widthHigh hmode
      · rw [offerToLog_of_widthHigh hmode, ← hmeasure, hnone]
        rfl
      · exact offerToLog_of_widthLow hmode
      · rw [offerToLog_of_widthLow hmode, ← hmeasure, hnone]
        rfl
      · rw [offerToLog_of_periodRise hmode, ← hmeasure, hnone]
        rfl
      · rw [offerToLog_of_periodRise hmode, hmeasure]
        rfl
      · rw [offerToLog_of_periodFall hmode, ← hmeasure, hnone]
        rfl
      · rw [offerToLog_of_periodFall hmode, hmeasure]
        rfl
    have hlog := logEdge_of_unlogged hr hnone
    refine ⟨_, hexec, hlink, ?_, ?_⟩
    · rw [handOn_capture, hlog]
      rfl
    · rw [handOn_session, hlog]
      rfl
  case logged =>
    have hsome : offerToLog s.timeBase (edgeTo level) r =
        (some { kind := kind, value := value, saturated := saturated },
          { r with measure := m' }) := by
      rcases hcase with ⟨hmode, rfl, rfl, rfl, hsel⟩ | ⟨hmode, rfl, hopen, rfl, rfl⟩ |
        ⟨hmode, rfl, hopen, rfl, rfl⟩ | ⟨hmode, rfl, hopen, rfl, rfl⟩ |
        ⟨hmode, rfl, hopen, rfl, rfl⟩
      · rw [offerToLog_of_edges hmode, if_pos, hmeasure]
        · rcases hsel with ⟨rfl, rfl, _⟩ | ⟨rfl, rfl, _⟩ <;> rfl
        · rw [selects_edgeTo_iff]
          rcases hsel with ⟨rfl, _, h | h⟩ | ⟨rfl, _, h | h⟩ <;> simp [h]
      · rw [← map_measured hopen, hmeasure]
        exact offerToLog_of_widthHigh hmode
      · rw [← map_measured hopen, hmeasure]
        exact offerToLog_of_widthLow hmode
      · rw [← map_measured hopen, hmeasure]
        exact offerToLog_of_periodRise hmode
      · rw [← map_measured hopen, hmeasure]
        exact offerToLog_of_periodFall hmode
    have hlog := logEdge_of_logged hr hsome
    refine ⟨_, hexec, hlink, ?_⟩
    rw [handOn_capture, handOn_session, hlog]
    have hroomy := record_of_room i { kind := kind, value := value, saturated := saturated }
      (cap := (s.setInput i { r with measure := m' }).capture)
    refine ⟨fun hroom kept hkept => ?_, fun hfull => ?_⟩
    · obtain rfl := hkept.trans (hroomy hroom s.timeBase s.line.lineBase).symm
      refine ⟨fun hstill => ?_,
        fun hs ho => movesTo_logEvent (s := s.setInput i _) _ _ hroom hs ho⟩
      rw [logEvent_of_still (s := s.setInput i _) _ _ hroom hstill]
      exact ⟨rfl, rfl⟩
    · rw [logEvent_of_full (s := s.setInput i _) _ _ hfull,
        record_of_full (cap := (s.setInput i _).capture) _ _ hfull]
      exact ⟨rfl, rfl⟩

/-- A request row executes a request of a given payload. -/
theorem Answers.executed_of_payload {i : Instr} {answer : State → List Byte → Answer × State}
    (hi : Answers i answer) {s t : State} {r : Request} {payload fields : List Byte}
    {result : Result} (hs : Serves s r) (hk : kindOfCommand i = some r.kind)
    (hp : r.payload = payload)
    (ha : answer (popRequest s) payload = ({ result := result, fields := fields }, t)) :
    Executed i s r result fields t := hi.executed hs hk (hp ▸ ha)

/-! ## Operand bytes of the capture unit -/

theorem inputOf_of_names {x : Byte} {i : Fin 4} (h : x.toNat = i.val) : inputOf x = some i := by
  have hlt : x.toNat < 4 := h ▸ i.isLt
  rw [inputOf, dif_pos hlt]
  exact congrArg some (Fin.ext h)

theorem inputOf_of_large {x : Byte} (h : 3 < x.toNat) : inputOf x = none :=
  dif_neg (Nat.not_lt_of_le h)

theorem routeIdOf_of_names {x : Byte} {id : Fin 16} (h : x.toNat = id.val) :
    routeIdOf x = some id := by
  have hlt : x.toNat < 16 := h ▸ id.isLt
  rw [routeIdOf, dif_pos hlt]
  exact congrArg some (Fin.ext h)

theorem routeIdOf_of_large {x : Byte} (h : 15 < x.toNat) : routeIdOf x = none :=
  dif_neg (Nat.not_lt_of_le h)

/-- A code that names no mode (R103, R175). -/
theorem capModeOf_of_large {x : Byte} (h : 5 < x.toNat) : capModeOf x = none := by
  unfold capModeOf
  split
  case h_7 => rfl
  all_goals omega

theorem logEdgesOf_of_large {x : Byte} (h : 3 < x.toNat) : logEdgesOf x = none := by
  unfold logEdgesOf
  split
  case h_5 => rfl
  all_goals omega

theorem routeEdgeOf_of_large {x : Byte} (h : 2 < x.toNat) : routeEdgeOf x = none := by
  unfold routeEdgeOf
  split
  case h_4 => rfl
  all_goals omega

/-! ## CAPTURE_CONFIG -/

section
variable {s : State} {x m l f : Byte} {i : Fin 4}

theorem answerCaptureConfig_of_noInput (ho : s.session.state = .opened) (hx : 3 < x.toNat) :
    answerCaptureConfig s [x, m, l, f] = (refusal .badValue 3, s) := by
  rw [answerCaptureConfig, inSession_of_opened ho, inputOf_of_large hx]

theorem answerCaptureConfig_of_out (ho : s.session.state = .opened) (hx : x.toNat = i.val)
    (h : 5 < m.toNat ∨ 3 < l.toNat ∨ 15 < f.toNat) :
    answerCaptureConfig s [x, m, l, f] = (inputAnswer (s.input i) .badValue, s) := by
  rw [answerCaptureConfig, inSession_of_opened ho, inputOf_of_names hx]
  dsimp only
  split
  · next hm hl hf =>
    rcases h with h | h | h
    · rw [capModeOf_of_large h] at hm
      cases hm
    · rw [logEdgesOf_of_large h] at hl
      cases hl
    · rw [filterOf_of_large h] at hf
      cases hf
  · rfl

theorem answerCaptureConfig_of_fields {mode : CapMode} {logEdges : LogEdges}
    (ho : s.session.state = .opened) (hx : x.toNat = i.val) (hf : f.toNat ≤ 15) :
    answerCaptureConfig s [x, mode.code, logEdges.code, f] =
      (inputAnswer ((configureCapture s i mode logEdges (f.setWidth 4)).input i) .ok,
        configureCapture s i mode logEdges (f.setWidth 4)) := by
  rw [answerCaptureConfig, inSession_of_opened ho, inputOf_of_names hx, capModeOf_code,
    logEdgesOf_code, filterOf_of_small hf]

end

/-- An accepted edge leaves the settings of its input (R103, R106). -/
theorem acceptEdge_input_settings (s : State) (i : Fin 4) (level : Level) :
    ((acceptEdge s i level).input i).mode = (s.input i).mode ∧
      ((acceptEdge s i level).input i).logEdges = (s.input i).logEdges ∧
      ((acceptEdge s i level).input i).filter = (s.input i).filter := by
  rw [acceptEdge_eq_handOn, handOn_input, logEdge_input, if_pos rfl, offerToLog_input]
  exact ⟨rfl, rfl, rfl⟩

/-- The acceptance state by the change of mode (R111). -/
theorem configureInput_eq (i : CapInput) (mode : CapMode) (logEdges : LogEdges)
    (filter : BitVec 4) (pin : Level) :
    configureInput i mode logEdges filter pin =
      { mode := mode, logEdges := logEdges, filter := filter, measure := none
        level := if mode = .off then none else if i.mode = .off then some pin else i.level
        candidate := if mode = .off ∨ i.mode = .off then none else i.candidate } := by
  unfold configureInput
  by_cases hoff : mode = .off
  · simp [hoff]
  · by_cases hwas : i.mode = .off <;> simp [hoff, hwas]

section
variable {s : State} {i : Fin 4} {mode : CapMode} {logEdges : LogEdges} {filter : BitVec 4}
  {r : CapInput}

theorem configureCapture_of_waiting
    (hr : configureInput (s.input i) mode logEdges filter s.pins.cap[i] = r)
    (h : inputChange r = none) :
    configureCapture s i mode logEdges filter = s.setInput i r := by
  rw [configureCapture, hr, h]

theorem configureCapture_of_complete {level : Level}
    (hr : configureInput (s.input i) mode logEdges filter s.pins.cap[i] = r)
    (h : inputChange r = some level) :
    configureCapture s i mode logEdges filter = acceptEdge (s.setInput i r) i level := by
  rw [configureCapture, hr, h]

end

/-- Settles O24: range checks, the settings, and then the candidate under the new filter. -/
theorem captureConfigSetsAnInput : Obligations.CaptureConfigSetsAnInput := by
  intro s r x m l f hs hk ho hp
  have hi : Answers .captureConfig answerCaptureConfig := ⟨_, rfl, fun _ => rfl⟩
  have hexec {result fields t} := hi.executed_of_payload (result := result)
    (fields := fields) (t := t) hs (congrArg some hk.symm) hp
  refine ⟨fun hx => hexec (answerCaptureConfig_of_noInput (s := popRequest s) ho hx),
    fun i hx => ⟨fun hout => hexec (answerCaptureConfig_of_out (s := popRequest s) ho hx hout),
      ?_⟩⟩
  rintro mode logEdges rfl rfl hf s1 hs1
  obtain ⟨cfg, hcfg⟩ : ∃ cfg, configureInput ((popRequest s).input i) mode logEdges
      (f.setWidth 4) (popRequest s).pins.cap[i] = cfg := ⟨_, rfl⟩
  obtain rfl : s1 = (popRequest s).setInput i cfg := by
    rw [hs1, ← hcfg, configureInput_eq]
    rfl
  have hfilter : cfg.filter.toNat = f.toNat := by
    rw [← hcfg, configureInput_eq]
    exact setWidth_toNat_of_small hf
  have hcandidate : cfg.candidate =
      if mode = .off ∨ (s.input i).mode = .off then none else (s.input i).candidate := by
    rw [← hcfg, configureInput_eq, popRequest_input]
  have hanswer : ∀ i : CapInput, i.mode = cfg.mode → i.logEdges = cfg.logEdges →
      i.filter = cfg.filter →
      inputAnswer i .ok = { result := .ok, fields := [mode.code, logEdges.code, f] } := by
    intro i hmode hedges hsame
    rw [inputAnswer, hmode, hedges, hsame, hfilter, ← hcfg, configureInput_eq]
    simp [byteOf]
  refine ⟨fun hwaits => hexec ?_, fun hon hwas k hk hcount => hexec ?_⟩
  · have hnone : inputChange cfg = none := inputChange_of_early fun k hk => by
      rw [hcandidate] at hk
      split at hk
      · cases hk
      · next hon =>
        obtain ⟨hon, hwas⟩ := not_or.mp hon
        exact hfilter ▸ (hwaits.resolve_left hon).resolve_left hwas k hk
    rw [answerCaptureConfig_of_fields (s := popRequest s) ho hx hf,
      configureCapture_of_waiting hcfg hnone, setInput_input_same, hanswer cfg rfl rfl rfl]
  · have hsome : inputChange cfg = some k.level := by
      refine inputChange_of_complete ?_ (hcandidate.trans ?_) (hfilter.symm ▸ hcount)
      · rwa [← hcfg, configureInput_eq]
      · rw [if_neg (by simp [hon, hwas]), hk]
    obtain ⟨hmode, hedges, hsame⟩ := acceptEdge_input_settings
      ((popRequest s).setInput i cfg) i k.level
    rw [setInput_input_same] at hmode hedges hsame
    rw [answerCaptureConfig_of_fields (s := popRequest s) ho hx hf,
      configureCapture_of_complete hcfg hsome, hanswer _ hmode hedges hsame]

/-! ## READ_CAPTURES -/

section
variable {cap : Capture} (time line : Word)

theorem appendGap_of_noDrops (h : cap.dropCount = 0) : cap.appendGap time line = cap := if_pos h

theorem appendGap_of_drops (h : cap.dropCount ≠ 0) :
    cap.appendGap time line =
      { cap with
        log := cap.log ++
          [{ number := cap.nextNumber, input := cap.lastDropped.getD 0, kind := .gap, time := time,
             line := line, value := cap.dropCount.setWidth 24, saturated := false }]
        nextNumber := cap.nextNumber + 1
        dropCount := 0
        lastDropped := none } := if_neg h

end

section
variable {s : State} {m : Byte}

/-- The reply tells the log and the drop count as they stand after the GAP entry (R123). -/
theorem readCaptures_eq {n : Nat} {cap : Capture}
    (h : Capture.appendGap { s.capture with log := s.capture.log.drop n } s.timeBase
      s.line.lineBase = cap) :
    readCaptures s n =
      ({ result := .ok
         fields := [byteOf (min n s.capture.log.length), byteOf cap.log.length] ++
           le16 cap.dropCount ++ (s.capture.log.take n).flatMap CapEntry.bytes },
        { s with capture := cap }) := by
  rw [← h, ← List.length_take]
  rfl

theorem answerReadCaptures_of_out (ho : s.session.state = .opened)
    (h : m = 0 ∨ 16 < m.toNat) :
    answerReadCaptures s [m] = (refusal .badValue 4, s) := by
  have hout : m.toNat = 0 ∨ 16 < m.toNat := h.imp_left fun h => by rw [h]; rfl
  rw [answerReadCaptures, inSession_of_opened ho, if_pos hout]

theorem answerReadCaptures_of_streaming (ho : s.session.state = .opened) (h1 : 1 ≤ m.toNat)
    (h2 : m.toNat ≤ 16) (hs : s.capture.streaming = true) :
    answerReadCaptures s [m] =
      ({ result := .streaming
         fields := [0, byteOf s.capture.log.length] ++ le16 s.capture.dropCount }, s) := by
  rw [answerReadCaptures, inSession_of_opened ho, if_neg (by omega), if_pos hs]

theorem answerReadCaptures_of_count (ho : s.session.state = .opened) (h1 : 1 ≤ m.toNat)
    (h2 : m.toNat ≤ 16) (hs : s.capture.streaming = false) :
    answerReadCaptures s [m] = readCaptures s m.toNat := by
  rw [answerReadCaptures, inSession_of_opened ho, if_neg (by omega), if_neg (by simp [hs])]

end

/-- Settles O26: the entries leave in one piece, and only then a drop count becomes a GAP entry. -/
theorem readCapturesDrainsTheLog : Obligations.ReadCapturesDrainsTheLog := by
  intro s r m hs hk ho hp
  have hi : Answers .readCaptures answerReadCaptures := ⟨_, rfl, fun _ => rfl⟩
  have hexec {result fields t} := hi.executed_of_payload (result := result)
    (fields := fields) (t := t) hs (congrArg some hk.symm) hp
  refine ⟨fun hout => hexec (answerReadCaptures_of_out (s := popRequest s) ho hout),
    fun h1 h2 => ⟨fun hon =>
      hexec (answerReadCaptures_of_streaming (s := popRequest s) ho h1 h2 hon), fun hoff => ?_⟩⟩
  have hread := answerReadCaptures_of_count (s := popRequest s) ho h1 h2 hoff
  refine ⟨fun hnone => hexec (hread.trans ?_), fun hdrops => hexec (hread.trans ?_)⟩
  · rw [readCaptures_eq (s := popRequest s) (appendGap_of_noDrops _ _ hnone), popRequest_capture,
      List.length_drop, hnone]
  · rw [readCaptures_eq (s := popRequest s) (appendGap_of_drops _ _ hdrops), List.length_append,
      popRequest_capture, List.length_drop]
    rfl

/-! ## CAPTURE_STREAM -/

/-- Moves are no reason for streaming to end (R122, R125). -/
theorem moveCaptures_streaming (n : Nat) (time line : Word) (cap : Capture) (se : Session) :
    (moveCaptures n time line cap se).1.streaming = cap.streaming := by
  induction n generalizing cap se with
  | zero => rfl
  | succ n ih =>
    unfold moveCaptures
    split
    · split
      · rfl
      · dsimp only
        split
        · exact (ih _ _).trans (appendGap_keeps _ time line).2.2
        · rfl
    · rfl

section
variable {s : State} {m : Byte}

theorem answerCaptureStream_of_out (ho : s.session.state = .opened) (h : 1 < m.toNat) :
    answerCaptureStream s [m] = (refusal .badValue 2, s) := by
  rw [answerCaptureStream, inSession_of_opened ho, (twoValues_of_large h).1]

theorem answerCaptureStream_of_setting (ho : s.session.state = .opened) (on : Bool) :
    answerCaptureStream s [boolCode on] =
      ({ result := .ok
         fields := [boolCode (setStreaming s on).capture.streaming,
           byteOf (setStreaming s on).capture.log.length] }, setStreaming s on) := by
  rw [answerCaptureStream, inSession_of_opened ho, boolOf_code]

theorem setStreaming_off :
    setStreaming s false = { s with capture := { s.capture with streaming := false } } := rfl

/-- A setting that is already so is left (R124). -/
theorem setStreaming_on_of_on (h : s.capture.streaming = true) : setStreaming s true = s := by
  have hsame : ({ s with capture := { s.capture with streaming := true } } : State) = s := by
    rw [← h]
  rw [setStreaming, hsame, h]
  rfl

theorem setStreaming_on_of_off (h : s.capture.streaming = false) :
    setStreaming s true =
      tryMoves { s with capture := { s.capture with streaming := true } } := by
  unfold setStreaming
  rw [h]
  rfl

end

/-- Settles O27: turning on is one attempt at the moves, from the log as it stands. -/
theorem captureStreamMovesAtOnce : Obligations.CaptureStreamMovesAtOnce := by
  intro s r m hs hk ho hp
  have hi : Answers .captureStream answerCaptureStream := ⟨_, rfl, fun _ => rfl⟩
  have hexec {result fields t} := hi.executed_of_payload (result := result)
    (fields := fields) (t := t) hs (congrArg some hk.symm) hp
  have hset := answerCaptureStream_of_setting (s := popRequest s) ho
  refine ⟨fun hout => hexec (answerCaptureStream_of_out (s := popRequest s) ho hout),
    ?off, ?same, ?on⟩
  case off =>
    rintro rfl
    exact hexec (hset false)
  case same =>
    rintro rfl hon
    refine hexec ((hset true).trans ?_)
    rw [setStreaming_on_of_on (s := popRequest s) hon, popRequest_capture, hon]
    rfl
  case on =>
    rintro rfl hoff
    refine ⟨_, _, movesTo_moveCaptures rfl ho, hexec ((hset true).trans ?_)⟩
    rw [setStreaming_on_of_off (s := popRequest s) hoff, tryMoves, moveCaptures_streaming]
    rfl

/-! ## Routes -/

/-- Routes are looked up from the lowest id (R114). -/
theorem find?_allRoutes_of_lowest {p : Fin 16 → Bool} {id : Fin 16} (hid : p id = true)
    (hlow : ∀ j < id, p j = false) : allRoutes.find? p = some id := by
  rw [List.find?_eq_some_iff_getElem]
  refine ⟨hid, id, by simp [allRoutes], by simp [allRoutes], fun j hj => ?_⟩
  have := hlow ⟨j, by omega⟩ hj
  simpa [allRoutes] using this

section
variable {s : State} {w : Route} {id : Fin 16}

theorem findRoute_of_lowest (h : s.route id = some w) (hlow : ∀ j < id, s.route j ≠ some w) :
    findRoute s w = some id :=
  find?_allRoutes_of_lowest (decide_eq_true h) fun j hj => decide_eq_false (hlow j hj)

theorem findRoute_of_absent (h : ∀ id, s.route id ≠ some w) : findRoute s w = none :=
  List.find?_eq_none.mpr fun id _ => by simpa using h id

theorem freeRoute_of_lowest (h : s.route id = none) (hlow : ∀ j < id, s.route j ≠ none) :
    freeRoute s = some id :=
  find?_allRoutes_of_lowest (by rw [h]; rfl) fun j hj => by
    simpa [← Option.isSome_iff_ne_none] using hlow j hj

theorem freeRoute_of_full (h : ∀ id, s.route id ≠ none) : freeRoute s = none :=
  List.find?_eq_none.mpr fun id _ => by simpa using h id

/-- The count of routes follows the one id that changes (R113). -/
theorem routeCount_setRoute (s : State) (id : Fin 16) (r : Option Route) :
    routeCount (s.setRoute id r) + (s.route id).isSome.toNat = routeCount s + r.isSome.toNat := by
  have hsplit : ∀ u : State, routeCount u =
      (allRoutes.erase id).countP (fun j => (u.route j).isSome) + (u.route id).isSome.toNat := by
    intro u
    have hperm : allRoutes.Perm (id :: allRoutes.erase id) :=
      List.perm_cons_erase (List.mem_finRange id)
    rw [routeCount, hperm.countP_eq, List.countP_cons]
    cases (u.route id).isSome <;> rfl
  have hothers : (allRoutes.erase id).countP (fun j => ((s.setRoute id r).route j).isSome) =
      (allRoutes.erase id).countP (fun j => (s.route j).isSome) := by
    refine List.countP_congr fun j hj => ?_
    have hne : j ≠ id := ((List.nodup_finRange 16).mem_erase_iff.mp hj).1
    rw [setRoute_route, if_neg hne]
  rw [hsplit, hsplit, hothers, setRoute_route, if_pos rfl]
  omega

end

section
variable {s : State} {w : Route} {id : Fin 16} {x e ch : Byte}

theorem answerRouteAdd_of_out (ho : s.session.state = .opened)
    (h : 3 < x.toNat ∨ 2 < e.toNat ∨ 7 < ch.toNat) :
    answerRouteAdd s [x, e, ch] = (routeAnswer s .badValue 0xFF, s) := by
  rw [answerRouteAdd, inSession_of_opened ho]
  split
  · next hx he hc =>
    rcases h with h | h | h
    · rw [inputOf_of_large h] at hx
      cases hx
    · rw [routeEdgeOf_of_large h] at he
      cases he
    · rw [channelOf_of_large h] at hc
      cases hc
  · rfl

theorem answerRouteAdd_of_route (ho : s.session.state = .opened) (hx : x.toNat = w.input.val)
    (hc : ch.toNat = w.channel.val) : answerRouteAdd s [x, w.edge.code, ch] = addRoute s w := by
  rw [answerRouteAdd, inSession_of_opened ho, inputOf_of_names hx, routeEdgeOf_code,
    channelOf_of_names hc]

theorem addRoute_of_held (h : findRoute s w = some id) :
    addRoute s w = (routeAnswer s .duplicate id.val, s) := by rw [addRoute, h]

theorem addRoute_of_full (h : findRoute s w = none) (hfull : freeRoute s = none) :
    addRoute s w = (routeAnswer s .noSpace 0xFF, s) := by rw [addRoute, h, hfull]

theorem addRoute_of_free (h : findRoute s w = none) (hfree : freeRoute s = some id) :
    addRoute s w = (routeAnswer (s.setRoute id (some w)) .ok id.val, s.setRoute id (some w)) := by
  rw [addRoute, h, hfree]

theorem answerRouteRemove_of_out (ho : s.session.state = .opened) (h : 15 < x.toNat) :
    answerRouteRemove s [x] = (routesLeft s .badValue, s) := by
  rw [answerRouteRemove, inSession_of_opened ho, routeIdOf_of_large h]

theorem answerRouteRemove_of_free (ho : s.session.state = .opened) (hx : x.toNat = id.val)
    (h : s.route id = none) : answerRouteRemove s [x] = (routesLeft s .notFound, s) := by
  rw [answerRouteRemove, inSession_of_opened ho, routeIdOf_of_names hx]
  exact if_pos (by rw [h]; rfl)

theorem answerRouteRemove_of_held (ho : s.session.state = .opened) (hx : x.toNat = id.val)
    (h : s.route id ≠ none) :
    answerRouteRemove s [x] = (routesLeft (s.setRoute id none) .ok, s.setRoute id none) := by
  rw [answerRouteRemove, inSession_of_opened ho, routeIdOf_of_names hx]
  exact if_neg (by simpa using h)

end

/-- Settles O25: the lowest id of an equal route, or else the lowest free id. -/
theorem routesAreAddedAndRemoved : Obligations.RoutesAreAddedAndRemoved := by
  intro s r hs ho n hn
  have hadd : Answers .routeAdd answerRouteAdd := ⟨_, rfl, fun _ => rfl⟩
  have hremove : Answers .routeRemove answerRouteRemove := ⟨_, rfl, fun _ => rfl⟩
  have ho' : (popRequest s).session.state = .opened := ho
  have hcount : routeCount (popRequest s) = n := by
    rw [hn, routeCount, List.countP_eq_length_filter]
    rfl
  have hanswer : ∀ result id, routeAnswer (popRequest s) result id =
      { result := result, fields := [byteOf id, byteOf n] } := fun result id => by
    rw [routeAnswer, hcount]
  have hleft : ∀ result, routesLeft (popRequest s) result =
      { result := result, fields := [byteOf n] } := fun result => by rw [routesLeft, hcount]
  refine ⟨fun hk x e ch hp => ?add, fun hk x hp => ?remove⟩
  case add =>
    have hexec {result fields t} := hadd.executed_of_payload (result := result)
      (fields := fields) (t := t) hs (congrArg some hk.symm) hp
    refine ⟨fun hout => hexec ?_, ?_⟩
    · rw [answerRouteAdd_of_out ho' hout, hanswer]
      rfl
    rintro w hx rfl hc
    have hroute := answerRouteAdd_of_route ho' hx hc
    refine ⟨fun id hid hlow => hexec ?_, fun habsent => ⟨fun hfull => hexec ?_,
      fun id hid hlow => hexec ?_⟩⟩
    · rw [hroute, addRoute_of_held (s := popRequest s) (findRoute_of_lowest hid hlow), hanswer]
    · rw [hroute, addRoute_of_full (s := popRequest s) (findRoute_of_absent habsent)
        (freeRoute_of_full hfull), hanswer]
      rfl
    · have hmore : routeCount ((popRequest s).setRoute id (some w)) = n + 1 := by
        have := routeCount_setRoute (popRequest s) id (some w)
        rwa [popRequest_route, hid, hcount] at this
      rw [hroute, addRoute_of_free (s := popRequest s) (findRoute_of_absent habsent)
        (freeRoute_of_lowest hid hlow), routeAnswer, hmore]
  case remove =>
    have hexec {result fields t} := hremove.executed_of_payload (result := result)
      (fields := fields) (t := t) hs (congrArg some hk.symm) hp
    refine ⟨fun hout => hexec ?_, fun id hx => ⟨fun hid => hexec ?_, fun hid => hexec ?_⟩⟩
    · rw [answerRouteRemove_of_out ho' hout, hleft]
    · rw [answerRouteRemove_of_free ho' hx hid, hleft]
    · have hfewer : routeCount ((popRequest s).setRoute id none) = n - 1 := by
        have := routeCount_setRoute (popRequest s) id none
        rw [popRequest_route, Option.isSome_iff_ne_none.mpr hid, hcount] at this
        exact Nat.eq_sub_of_add_eq this
      rw [answerRouteRemove_of_held ho' hx hid, routesLeft, hfewer]

end Sys2Proof.Machine

namespace Sys2Proof.Machine

/-! ## A trip of the latch -/

/-- The set with a cause added, field by field (R127, R135). -/
theorem CauseSet.add_eq (s : CauseSet) (cause : CutoffCause) :
    s.add cause =
      { pin := s.pin || cause == .pin, request := s.request || cause == .request,
        silence := s.silence || cause == .silence } := by
  obtain ⟨pin, request, silence⟩ := s
  cases cause <;> simp [CauseSet.add]

/-- The causes of a trip from CLEAR are the one cause (R131). -/
theorem CauseSet.empty_add (cause : CutoffCause) :
    CauseSet.empty.add cause =
      { pin := cause == .pin, request := cause == .request, silence := cause == .silence } :=
  CauseSet.add_eq _ cause

theorem CauseSet.has_add_same (s : CauseSet) (cause : CutoffCause) :
    (s.add cause).has cause = true := by
  cases cause <;> rfl

/-- A cause added takes none out of the set. -/
theorem CauseSet.pin_add_of_pin {s : CauseSet} (h : s.pin = true) (cause : CutoffCause) :
    (s.add cause).pin = true := by
  cases cause <;> simp [CauseSet.add, h]

/-- A set that has a cause is not empty. -/
theorem CauseSet.ne_empty_of_has {s : CauseSet} {cause : CutoffCause} (h : s.has cause = true) :
    s ≠ CauseSet.empty := by
  rintro rfl
  cases cause <;> cases h

theorem forceMembers_eq_foldl (s : State) :
    forceMembers s = allChannels.foldl (fun u c => if (u.chan c).member = true then
      endWork .abortedCutoff .cutoff .forced Channel.safeLevel u c else u) s := by
  have hone : forceMember = fun u c => if (u.chan c).member = true then
      endWork .abortedCutoff .cutoff .forced Channel.safeLevel u c else u := by
    funext u c
    rw [forceMember, forceChannel_eq_endWork]
  rw [forceMembers, hone]

/-- All that the forcing of the members does: each is told of as it stood, in increasing number
(R131, R132). -/
theorem forceMembers_spec (s t : State) (ht : t = forceMembers s) (members : List (Fin 8))
    (hmembers : members = allChannels.filter fun c => (s.chan c).member) :
    (∀ c, t.chan c =
      if (s.chan c).member = true then (s.chan c).stopped .forced (s.chan c).safeLevel
      else s.chan c) ∧
    t.store = (members.foldl (fun u c => releaseUse u (s.chan c).pending) s).store ∧
    t.session =
      submitAll (members.flatMap fun c =>
        endReports c (s.chan c) (chanNow s c) .abortedCutoff ++
          flushReports c (s.chan c) .cutoff) s.session ∧
    t = { s with channels := t.channels, store := t.store, session := t.session } := by
  have hall : ∀ c, c ∈ allChannels := by decide
  obtain ⟨hchan, hrest⟩ := foldl_endWork .abortedCutoff .cutoff .forced Channel.safeLevel
    Channel.member allChannels (by decide) s t (ht.trans (forceMembers_eq_foldl s)) members
    hmembers
  exact ⟨fun c => by rw [hchan]; simp [hall], hrest⟩

/-- A trip from CLEAR: the latch and its cause, the report of the members, then each member forced
(R131, R132, R138). -/
theorem trip_of_clear {s : State} {cause : CutoffCause} (h : s.cutoff.latch = .clear) :
    trip s cause =
      { s with
        cutoff := { s.cutoff with latch := .tripped, causes := CauseSet.empty.add cause }
        channels := Vector.ofFn fun c =>
          if (s.chan c).member then (s.chan c).stopped .forced (s.chan c).safeLevel
          else s.chan c
        store := (((allChannels.filter fun c => (s.chan c).member).foldl
          (fun u c => releaseUse u (s.chan c).pending) s)).store
        session :=
          submitAll
            (.cutoffTripped (CauseSet.empty.add cause) (memberSet s) ::
              (allChannels.filter fun c => (s.chan c).member).flatMap fun c =>
                endReports c (s.chan c) (chanNow s c) .abortedCutoff ++
                  flushReports c (s.chan c) .cutoff)
            s.session } := by
  have htrip : trip s cause = forceMembers
      (submit { s with cutoff :=
          { s.cutoff with latch := .tripped, causes := CauseSet.empty.add cause } }
        (.cutoffTripped (CauseSet.empty.add cause) (memberSet s))) := by
    unfold trip
    rw [h]
  obtain ⟨hchan, hstore, hsession, heq⟩ := forceMembers_spec _ _ htrip _ rfl
  have hchannels : (trip s cause).channels = Vector.ofFn fun c =>
      if (s.chan c).member then (s.chan c).stopped .forced (s.chan c).safeLevel else s.chan c :=
    Vector.ext fun i hi => by
      rw [Vector.getElem_ofFn]
      exact hchan ⟨i, hi⟩
  have hstore' : (trip s cause).store =
      ((allChannels.filter fun c => (s.chan c).member).foldl
        (fun u c => releaseUse u (s.chan c).pending) s).store :=
    hstore.trans (releaseUse_foldl_store_congr (fun c => (s.chan c).pending) _ rfl)
  rw [heq, hchannels, hstore', hsession]
  rfl

/-- A trip by a cause the set has changes nothing (R135). -/
theorem trip_of_knownCause {s : State} {cause : CutoffCause} (h : s.cutoff.latch = .tripped)
    (hc : s.cutoff.causes.has cause = true) : trip s cause = s := by
  unfold trip
  rw [h]
  exact if_pos hc

/-- A trip by a further cause adds it and reports the FORCED channels (R135). -/
theorem trip_of_newCause {s : State} {cause : CutoffCause} (h : s.cutoff.latch = .tripped)
    (hc : s.cutoff.causes.has cause = false) :
    trip s cause =
      submit { s with cutoff := { s.cutoff with causes := s.cutoff.causes.add cause } }
        (.cutoffTripped (s.cutoff.causes.add cause) (forcedSet s)) := by
  unfold trip
  rw [h]
  exact if_neg (by rw [hc]; decide)

/-- Settles O29: the three cases of a trip, with the cause sets written out. -/
theorem tripForcesEveryMember : Obligations.TripForcesEveryMember := by
  intro s cause
  refine ⟨fun hclear causes hcauses => ?_, fun htripped => ⟨trip_of_knownCause htripped,
    fun hnew causes hcauses => ?_⟩⟩
  · rw [hcauses, ← CauseSet.empty_add]
    exact trip_of_clear hclear
  · rw [hcauses, ← CauseSet.add_eq]
    exact trip_of_newCause htripped hnew

/-- Whatever the latch was, a trip leaves it TRIPPED with the cause in its set, and moves nothing
but the latch, its causes, the channels, the use counts and the reports (R127, R131, R135). -/
theorem trip_frame (s : State) (cause : CutoffCause) :
    ∃ causes, causes.has cause = true ∧
      trip s cause =
        { s with
          cutoff := { s.cutoff with latch := .tripped, causes := causes }
          channels := (trip s cause).channels
          store := (trip s cause).store
          session := (trip s cause).session } := by
  cases hlatch : s.cutoff.latch with
  | clear => exact ⟨_, CauseSet.has_add_same CauseSet.empty cause, by rw [trip_of_clear hlatch]⟩
  | tripped =>
    cases hc : s.cutoff.causes.has cause with
    | true => exact ⟨_, hc, by rw [trip_of_knownCause hlatch hc, ← hlatch]⟩
    | false =>
      exact ⟨_, CauseSet.has_add_same s.cutoff.causes cause, by
        rw [trip_of_newCause hlatch hc, ← hlatch]; rfl⟩

/-! ## CUTOFF and CUTOFF_N -/

theorem acceptedChange_cutoff {level : Level} {n : Nat} (h : 5 ≤ n) :
    acceptedChange (some { level := level, count := n }) Config.cutoffFilter = some level :=
  acceptedChange_of_complete h

/-- Settles O28: the request by the answer of CUTOFF, the pin by its complete candidate. -/
theorem cutoffIsTrippedByRequestAndPin : Obligations.CutoffIsTrippedByRequestAndPin := by
  intro s
  have hcutoff : Answers .cutoff answerCutoff := ⟨_, rfl, fun _ => rfl⟩
  refine ⟨fun r hs hk hp t ht => ?_, fun n hn h5 => ?_, fun n hn h5 => ?_⟩
  · obtain ⟨causes, hcause, heq⟩ := trip_frame (popRequest s) .request
    rw [← ht] at heq
    have hlatch : t.cutoff.latch = .tripped := by rw [heq]
    refine ⟨hlatch, by rw [heq]; exact hcause, ?_⟩
    refine hcutoff.executed hs (congrArg some hk.symm) ?_
    rw [hp, answerCutoff, ← ht, cutoffAnswer, hlatch]
    rfl
  · show execCutoffNAssertion s = _
    rw [execCutoffNAssertion, if_pos (hn ▸ acceptedChange_cutoff h5)]
  · show execCutoffNDeassertion s = _
    rw [execCutoffNDeassertion, if_pos (hn ▸ acceptedChange_cutoff h5)]

/-! ## CUTOFF_RELEASE -/

theorem answerCutoffRelease_of_asserted {s : State} (ho : s.session.state = .opened)
    (h : s.cutoff.level = .low) :
    answerCutoffRelease s [] = (cutoffAnswer s .cutoffActive, s) := by
  rw [answerCutoffRelease, inSession_of_opened ho, if_pos h]

theorem answerCutoffRelease_of_clear {s : State} (ho : s.session.state = .opened)
    (h : s.cutoff.level = .high) (hlatch : s.cutoff.latch = .clear) :
    answerCutoffRelease s [] = (cutoffAnswer s .ok, s) := by
  rw [answerCutoffRelease, inSession_of_opened ho, if_neg (by rw [h]; decide), hlatch]

theorem answerCutoffRelease_of_tripped {s : State} (ho : s.session.state = .opened)
    (h : s.cutoff.level = .high) (hlatch : s.cutoff.latch = .tripped) :
    answerCutoffRelease s [] = (cutoffAnswer (releaseCutoff s) .ok, releaseCutoff s) := by
  rw [answerCutoffRelease, inSession_of_opened ho, if_neg (by rw [h]; decide), hlatch]

theorem releaseCutoff_chan (s : State) (c : Fin 8) :
    (releaseCutoff s).chan c = releaseForced (s.chan c) := Vector.getElem_map ..

theorem releaseForced_state_ne (ch : Channel) : (releaseForced ch).state ≠ .forced := by
  unfold releaseForced
  split
  · exact fun h => by cases h
  · assumption

/-- After a release no channel is FORCED (R136). -/
theorem forcedSet_releaseCutoff (s : State) : forcedSet (releaseCutoff s) = 0 := by
  have hnone : (fun c => decide (((releaseCutoff s).chan c).state = .forced)) = fun _ => false := by
    funext c
    rw [releaseCutoff_chan]
    exact decide_eq_false (releaseForced_state_ne _)
  rw [forcedSet, hnone]
  rfl

/-- Settles O30: the answer of CUTOFF_RELEASE in its three cases. -/
theorem releaseReturnsForcedChannelsToOff : Obligations.ReleaseReturnsForcedChannelsToOff := by
  intro s r hs hk ho hp
  have ho' : (popRequest s).session.state = .opened := ho
  have hrun : ∀ {result fields t},
      answerCutoffRelease (popRequest s) [] = (⟨result, fields⟩, t) →
      Executed .cutoffRelease s r result fields t := fun h =>
    Answers.executed ⟨_, rfl, fun _ => rfl⟩ hs (congrArg some hk.symm) (hp ▸ h)
  refine ⟨fun hlow => hrun (answerCutoffRelease_of_asserted ho' hlow), fun hhigh =>
    ⟨fun hclear => hrun ?_, fun htripped => hrun ?_⟩⟩
  · rw [answerCutoffRelease_of_clear ho' hhigh hclear, cutoffAnswer, popRequest_cutoff, hclear]
    rfl
  · rw [answerCutoffRelease_of_tripped ho' hhigh htripped, cutoffAnswer, forcedSet_releaseCutoff]
    rfl

/-! ## SET_CHANNEL_OPTIONS -/

theorem answerSetChannelOptions_of_badChannel {s : State} {x m l : Byte}
    (ho : s.session.state = .opened) (h : 8 ≤ x.toNat) :
    answerSetChannelOptions s [x, m, l] = (refusal .badValue 3, s) := by
  rw [answerSetChannelOptions, inSession_of_opened ho, channelOf_of_large h]

theorem answerSetChannelOptions_of_badOption {s : State} {x m l : Byte} {c : Fin 8}
    (ho : s.session.state = .opened) (hc : NamesChannel x c) (h : 1 < m.toNat ∨ 1 < l.toNat) :
    answerSetChannelOptions s [x, m, l] = (optionsAnswer s c .badValue, s) := by
  rw [answerSetChannelOptions, inSession_of_opened ho, channelOf_of_names hc]
  dsimp only
  rcases h with h | h
  · obtain ⟨hm, -⟩ := twoValues_of_large h
    rw [hm]
  · obtain ⟨-, hl, -⟩ := twoValues_of_large h
    rw [hl]
    cases boolOf m <;> rfl

theorem answerSetChannelOptions_of_values {s : State} {x : Byte} {c : Fin 8}
    (ho : s.session.state = .opened) (hc : NamesChannel x c) (member : Bool) (safe : Level) :
    answerSetChannelOptions s [x, boolCode member, levelCode safe] =
      setOptions s c member safe := by
  simp only [answerSetChannelOptions, inSession_of_opened ho, channelOf_of_names hc, boolOf_code,
    levelOf_code]

/-- Only an OFF channel takes options (R137). -/
theorem setOptions_of_notOff {s : State} {c : Fin 8} {member : Bool} {safe : Level}
    (hlatch : ¬ (member = true ∧ s.cutoff.latch = .tripped)) (hstate : (s.chan c).state ≠ .off) :
    setOptions s c member safe = (optionsAnswer s c .state, s) :=
  (if_neg hlatch).trans (if_pos hstate)

/-- Options in range set on an OFF channel, which the latch does not keep out (R137). -/
theorem setOptions_of_off {s : State} {c : Fin 8} {member : Bool} {safe : Level}
    (hlatch : ¬ (member = true ∧ s.cutoff.latch = .tripped)) (hoff : (s.chan c).state = .off) :
    setOptions s c member safe =
      (⟨.ok, [0, boolCode member, levelCode safe]⟩,
        s.setChan c { s.chan c with member := member, safeLevel := safe }) := by
  rw [setOptions, if_neg hlatch, if_neg (by rw [hoff]; decide)]
  simp only [optionsAnswer, modChan_eq, setChan_chan_same, hoff, ChanState.code]

/-- Settles O31: the checks of SET_CHANNEL_OPTIONS in their order, then both options set. -/
theorem optionsAreSetInOff : Obligations.OptionsAreSetInOff := by
  intro s r x m l hs hk ho hp
  have ho' : (popRequest s).session.state = .opened := ho
  have hrun : ∀ {result fields t},
      answerSetChannelOptions (popRequest s) [x, m, l] = (⟨result, fields⟩, t) →
      Executed .setChannelOptions s r result fields t := fun h =>
    Answers.executed ⟨_, rfl, fun _ => rfl⟩ hs (congrArg some hk.symm) (hp ▸ h)
  refine ⟨fun hx => hrun (answerSetChannelOptions_of_badChannel ho' hx), fun c hc =>
    ⟨fun hbad => hrun (answerSetChannelOptions_of_badOption ho' hc hbad),
      fun member safe hm hl => ?_⟩⟩
  have hset : answerSetChannelOptions (popRequest s) [x, m, l] =
      setOptions (popRequest s) c member safe :=
    hm ▸ hl ▸ answerSetChannelOptions_of_values ho' hc member safe
  refine ⟨fun hmember htripped => hrun (hset.trans (if_pos ⟨hmember, htripped⟩)),
    fun hlatch => ⟨fun hstate => hrun (hset.trans (setOptions_of_notOff hlatch hstate)),
      fun hoff => hrun (hset.trans ?_)⟩⟩
  rw [hm, hl]
  exact setOptions_of_off hlatch hoff

/-! ## The timers -/

theorem timerExpired_of_running {now : Word} {timer : Option Word}
    (h : ∀ p ∈ timer, atOrAfter now p = false) : timerExpired now timer = false := by
  cases timer with
  | none => rfl
  | some p => exact h p rfl

theorem timerExpired_of_reached {now p : Word} {timer : Option Word} (ht : timer = some p)
    (h : atOrAfter now p = true) : timerExpired now timer = true := by
  rw [ht]
  exact h

/-- With the session closed no report is eligible, so that TXD has as little to send as before
(R152, R168). -/
theorem txdLaw_of_closed {s t : State} (hs : TxdLaw s) (hclosed : t.session.state = .closed)
    (htransmitter : t.link.transmitter = s.link.transmitter)
    (hreplies : t.link.replyQueue = s.link.replyQueue) : TxdLaw t := by
  intro hidle
  obtain ⟨hnone, -⟩ := hs (htransmitter ▸ hidle)
  refine ⟨hreplies.trans hnone, if_neg fun h => ?_⟩
  rw [hclosed] at h
  exact absurd h.1 (by decide)

/-- Settles O44: the trip by `trip_frame`, the close by `closeSession_spec`. -/
theorem timersExpire : Obligations.TimersExpire := by
  intro s
  refine ⟨fun hearly => ?_, fun p u htimer hdue htxd hu => ?_, fun hearly => ?_,
    fun p htimer hdue => ?_⟩
  · show execSilenceExpiry s = _
    rw [execSilenceExpiry, if_neg (by rw [timerExpired_of_running hearly]; decide)]
  · have hexec : exec .silenceExpiry s = .next (arbitrate (closeSession u .silence)) := by
      show execSilenceExpiry s = _
      rw [execSilenceExpiry, if_pos (timerExpired_of_reached htimer hdue), hu]
    obtain ⟨causes, hcause, hframe⟩ := trip_frame s .silence
    obtain ⟨hd, heq⟩ := closeSession_spec u _ .silence rfl
    rw [← hu] at hframe
    generalize closeSession u .silence = t at hd heq hexec
    have hsession : t.session = u.session.closed .silence := by rw [heq]
    have hlink : t.link = { s.link with cache := [] } := by rw [heq, hframe]
    have hquiet : TxdLaw t :=
      txdLaw_of_closed htxd (by rw [hsession]; rfl) (by rw [hlink]) (by rw [hlink])
    rw [arbitrate_of_txdLaw hquiet] at hexec
    refine ⟨t, hexec, by rw [hframe], by rw [hframe]; exact hcause, by rw [heq], by rw [heq], hd,
      hsession, ?_, hlink, ?_, ?_⟩
    all_goals rw [heq, hframe]
  · show execResendExpiry s = _
    rw [execResendExpiry, if_neg (by rw [timerExpired_of_running hearly]; decide)]
  · show execResendExpiry s = _
    rw [execResendExpiry, if_pos (timerExpired_of_reached htimer hdue)]
    rfl

end Sys2Proof.Machine

namespace Sys2Proof.Machine

/-! ## What the latch law reads -/

/-- All that the latch law reads of a channel: membership, and whether it is FORCED (R127). -/
def Channel.forcing (ch : Channel) : Bool × Bool := (ch.member, ch.state = .forced)

/-- All that the latch law reads of a state. -/
def latchView (s : State) : Latch × CauseSet × Level × (Fin 8 → Bool × Bool) :=
  (s.cutoff.latch, s.cutoff.causes, s.cutoff.level, fun c => (s.chan c).forcing)

theorem latchView_eq_iff {s t : State} :
    latchView t = latchView s ↔ t.cutoff.latch = s.cutoff.latch ∧
      t.cutoff.causes = s.cutoff.causes ∧ t.cutoff.level = s.cutoff.level ∧
      ∀ c, (t.chan c).member = (s.chan c).member ∧
        ((t.chan c).state = .forced ↔ (s.chan c).state = .forced) := by
  simp [latchView, Channel.forcing, funext_iff]

theorem latchView_of_fields {s t : State} (hcutoff : t.cutoff = s.cutoff)
    (hchan : t.channels = s.channels) : latchView t = latchView s := by
  simp only [latchView, State.chan, hcutoff, hchan]

/-- The latch law reads nothing but the view. -/
theorem CutoffLaw.of_view {s t : State} (hs : CutoffLaw s) (hv : latchView t = latchView s) :
    CutoffLaw t := by
  obtain ⟨hlatch, hcauses, hlevel, hchan⟩ := latchView_eq_iff.mp hv
  unfold CutoffLaw
  simpa only [hlatch, hcauses, hlevel, hchan, ne_eq] using hs

theorem notForced_of_view {s t : State} {c : Fin 8} (hv : latchView t = latchView s)
    (hn : (s.chan c).state ≠ .forced) : (t.chan c).state ≠ .forced := by
  obtain ⟨_, _, _, hchan⟩ := latchView_eq_iff.mp hv
  obtain ⟨_, hforced⟩ := hchan c
  exact mt hforced.mp hn

/-- The latch law less its clause on CUTOFF_N, which a trip restores (R127). -/
def LatchAgrees (s : State) : Prop :=
  (s.cutoff.latch = .tripped → ∀ c, (s.chan c).member = true → (s.chan c).state = .forced) ∧
    (s.cutoff.latch = .clear → ∀ c, (s.chan c).state ≠ .forced) ∧
    (s.cutoff.latch = .clear ↔ s.cutoff.causes = CauseSet.empty)

theorem LatchAgrees.of_fields {s t : State} (hs : LatchAgrees s)
    (hlatch : t.cutoff.latch = s.cutoff.latch) (hcauses : t.cutoff.causes = s.cutoff.causes)
    (hchan : t.channels = s.channels) : LatchAgrees t := by
  have hsame : ∀ c, t.chan c = s.chan c := fun c => by simp only [State.chan, hchan]
  unfold LatchAgrees at hs ⊢
  simpa only [hlatch, hcauses, hsame] using hs

theorem LatchAgrees.of_cutoff {s : State} (hs : LatchAgrees s) (cutoff : Cutoff)
    (hlatch : cutoff.latch = s.cutoff.latch) (hcauses : cutoff.causes = s.cutoff.causes) :
    LatchAgrees { s with cutoff := cutoff } := hs.of_fields hlatch hcauses rfl

/-- A CLEAR latch with no cause and no FORCED channel agrees with itself. -/
theorem latchAgrees_of_clear {s : State} (hlatch : s.cutoff.latch = .clear)
    (hcauses : s.cutoff.causes = CauseSet.empty) (hchan : ∀ c, (s.chan c).state ≠ .forced) :
    LatchAgrees s :=
  ⟨fun h => absurd (hlatch.symm.trans h) (by decide), fun _ => hchan, fun _ => hcauses,
    fun _ => hlatch⟩

theorem cutoffLaw_iff {s : State} :
    CutoffLaw s ↔ LatchAgrees s ∧
      (s.cutoff.level = .low → s.cutoff.latch = .tripped ∧ s.cutoff.causes.pin = true) := by
  simp only [CutoffLaw, LatchAgrees, and_assoc]

theorem CutoffLaw.agrees {s : State} (hs : CutoffLaw s) : LatchAgrees s := (cutoffLaw_iff.mp hs).1

/-- While CUTOFF_N is not asserted the law asks nothing of the causes. -/
theorem LatchAgrees.of_notAsserted {s : State} (hs : LatchAgrees s)
    (hlevel : s.cutoff.level ≠ .low) : CutoffLaw s :=
  cutoffLaw_iff.mpr ⟨hs, fun h => absurd h hlevel⟩

/-! ## The view an operation leaves as it was -/

/-! ### The channel engine

What ends or starts a firing moves a channel between READY, RUNNING, DRAINING and OFF, so a channel
that is not FORCED stays so; a lemma that needs it says so by `hn`. -/

section
variable {s : State} {c : Fin 8}

theorem latchView_setChan {ch : Channel} (h : ch.forcing = (s.chan c).forcing) :
    latchView (s.setChan c ch) = latchView s := by
  have hchan : ∀ d, ((s.setChan c ch).chan d).forcing = (s.chan d).forcing := fun d => by
    rw [setChan_chan]
    split
    · next hd => rw [hd, h]
    · rfl
  simp only [latchView, hchan, setChan_cutoff]

@[simp] theorem latchView_modChan {f : Channel → Channel}
    (hmember : (f (s.chan c)).member = (s.chan c).member)
    (hstate : (f (s.chan c)).state = (s.chan c).state) :
    latchView (s.modChan c f) = latchView s :=
  latchView_setChan (by simp only [Channel.forcing, hmember, hstate])

theorem latchView_modChan_of_notForced {f : Channel → Channel} (hn : (s.chan c).state ≠ .forced)
    (hmember : (f (s.chan c)).member = (s.chan c).member)
    (hstate : (f (s.chan c)).state ≠ .forced) :
    latchView (s.modChan c f) = latchView s :=
  latchView_setChan (by simp only [Channel.forcing, hmember, hn, hstate])

theorem latchView_foldl {α : Type} (f : State → α → State) (l : List α)
    (h : ∀ s a, latchView (f s a) = latchView s) (s : State) :
    latchView (l.foldl f s) = latchView s := by
  induction l generalizing s with
  | nil => rfl
  | cons a l ih => rw [List.foldl_cons, ih, h]

@[simp] theorem latchView_raiseUse (q : Fin 32) : latchView (raiseUse s q) = latchView s := rfl

@[simp] theorem latchView_releaseUse (b : Option Binding) :
    latchView (releaseUse s b) = latchView s :=
  latchView_of_fields (releaseUse_cutoff s b) (releaseUse_channels s b)

@[simp] theorem latchView_submit (b : ReportBody) : latchView (submit s b) = latchView s := rfl

@[simp] theorem latchView_submitMissed (r : MissedReport) :
    latchView (submitMissed s r) = latchView s := by simp [submitMissed]

@[simp] theorem latchView_dropHeads (cause : MissedCause) (p : Entry → Bool) :
    latchView (dropHeads s c cause p) = latchView s := by
  unfold dropHeads
  rw [latchView_foldl _ _ fun s e => by simp [loseEntry]]
  simp

@[simp] theorem latchView_flushQueue (cause : MissedCause) :
    latchView (flushQueue s c cause) = latchView s := by
  unfold flushQueue
  split <;> simp

@[simp] theorem latchView_beginStep (b : Binding) (f : Firing) (i : Nat) (p : Word) :
    latchView (beginStep s c b f i p) = latchView s := by simp [beginStep]

@[simp] theorem latchView_startPass (b : Binding) (p : Word) :
    latchView (startPass s c b p) = latchView s := latchView_beginStep ..

@[simp] theorem latchView_startFiring (hn : (s.chan c).state ≠ .forced) (b : Binding) (x : Entry)
    (p : Word) : latchView (startFiring s c b x p) = latchView s := by
  refine (latchView_beginStep ..).trans (latchView_modChan_of_notForced hn rfl ?_)
  dsimp only
  split <;> decide

@[simp] theorem latchView_clearFiring : latchView (clearFiring s c) = latchView s := by
  simp [clearFiring]

@[simp] theorem latchView_endFiring (f : Firing) (e : Word) (o : FiringOutcome) :
    latchView (endFiring s c f e o) = latchView s := by
  unfold endFiring
  split
  · simp
  · refine (latchView_submit _).trans ((latchView_modChan ?_ ?_).trans latchView_clearFiring)
    all_goals cases o <;> rfl

@[simp] theorem latchView_abortFiring (o : FiringOutcome) :
    latchView (abortFiring s c o) = latchView s := by
  unfold abortFiring
  split <;> simp

@[simp] theorem latchView_discardPending : latchView (discardPending s c) = latchView s := by
  simp [discardPending]

@[simp] theorem latchView_applyPending : latchView (applyPending s c) = latchView s := by
  unfold applyPending
  split <;> simp

theorem latchView_leaveService (hn : (s.chan c).state ≠ .forced) (cause : OffCause) :
    latchView (leaveService s c cause) = latchView s :=
  (latchView_submit _).trans (latchView_modChan_of_notForced hn rfl nofun)

theorem latchView_restAfterFiring (hn : (s.chan c).state ≠ .forced) :
    latchView (restAfterFiring s c) = latchView s := by
  unfold restAfterFiring
  split
  · exact latchView_leaveService hn _
  · refine latchView_modChan_of_notForced hn rfl ?_
    dsimp only
    split
    · decide
    · exact hn

theorem latchView_examineQueue (hn : (s.chan c).state ≠ .forced) (b : Binding) (e : Word) :
    latchView (examineQueue s c b e) = latchView s := by
  have hdrop := latchView_dropHeads (s := s) (c := c) .late (tooLate b e)
  have hn1 := notForced_of_view hdrop hn
  unfold examineQueue
  dsimp only
  split
  · exact (latchView_restAfterFiring hn1).trans hdrop
  · split
    · refine (latchView_startFiring ?_ _ _ _).trans ((latchView_modChan rfl rfl).trans hdrop)
      rw [modChan_chan_same]
      exact hn1
    · exact (latchView_restAfterFiring hn1).trans hdrop

theorem latchView_examineEnd (hn : (s.chan c).state ≠ .forced) (e : Word) :
    latchView (examineEnd s c e) = latchView s := by
  unfold examineEnd
  dsimp only
  split
  · simp
  · exact (latchView_examineQueue (notForced_of_view latchView_applyPending hn) _ _).trans
      latchView_applyPending

theorem latchView_wrapPoint (hn : (s.chan c).state ≠ .forced) (b : Binding) (f : Firing)
    (target : Option Nat) (e : Word) : latchView (wrapPoint s c b f target e) = latchView s := by
  have hclear : latchView (clearFiring (applyPending s c) c) = latchView s := by simp
  unfold wrapPoint
  dsimp only
  split
  · exact (latchView_leaveService (notForced_of_view hclear hn) _).trans hclear
  · split <;> simp

theorem latchView_jumpToLoop (hn : (s.chan c).state ≠ .forced) (b : Binding) (f : Firing)
    (e : Word) : latchView (jumpToLoop s c b f e) = latchView s := by
  unfold jumpToLoop
  dsimp only
  split
  · simp
  · exact latchView_wrapPoint hn ..

theorem latchView_endStep (hn : (s.chan c).state ≠ .forced) (b : Binding) (f : Firing) (e : Word) :
    latchView (endStep s c b f e) = latchView s := by
  have hend := latchView_endFiring (s := s) (c := c) f e .complete
  unfold endStep
  dsimp only
  split
  · simp
  split
  · exact latchView_jumpToLoop hn ..
  split
  · exact latchView_jumpToLoop hn ..
  split
  · exact (latchView_examineEnd (notForced_of_view hend hn) e).trans hend
  · exact latchView_wrapPoint hn ..

/-! ### The happenings of a channel -/

theorem notForced_of_inService {ch : Channel} (h : ch.inService = true) : ch.state ≠ .forced := by
  intro hforced
  simp [Channel.inService, hforced] at h

/-- A step ends only on a channel in service (R32). -/
theorem notForced_of_stepEndReached {b : Binding} {f : Firing}
    (h : stepEndReached s c = some (b, f)) : (s.chan c).state ≠ .forced := by
  unfold stepEndReached at h
  dsimp only at h
  split at h
  · split at h
    · next hreached =>
      obtain ⟨hservice, _⟩ := Bool.and_eq_true_iff.mp hreached
      exact notForced_of_inService hservice
    · cases h
  · cases h

theorem notForced_of_edgeEndsStep {ch : Channel} {o : Offer} {r : Binding × Firing × Word}
    (h : edgeEndsStep ch o = some r) : ch.state ≠ .forced := by
  unfold edgeEndsStep at h
  dsimp only at h
  split at h
  · split at h
    · next hends =>
      simp only [Bool.and_eq_true] at hends
      obtain ⟨⟨hservice, _⟩, _⟩ := hends
      exact notForced_of_inService hservice
    · cases h
  · cases h

@[simp] theorem latchView_takeOffer (o : Offer) : latchView (takeOffer s c o) = latchView s := by
  unfold takeOffer
  split
  · next hends => exact latchView_endStep (notForced_of_edgeEndsStep hends) _ _ _
  · rfl

@[simp] theorem latchView_dueWhileRunning (b : Binding) :
    latchView (dueWhileRunning s c b) = latchView s := by
  unfold dueWhileRunning
  split <;> simp

@[simp] theorem latchView_handleDue : latchView (handleDue s c) = latchView s := by
  unfold handleDue
  dsimp only
  split
  · split
    · split
      · split <;> simp
      · split
        · next hrest =>
          refine (latchView_dueWhileRunning _).trans ((latchView_startFiring ?_ _ _ _).trans
            (latchView_modChan rfl rfl))
          rw [modChan_chan_same]
          rcases hrest with h | h <;> simp [h]
        · rfl
    · rfl
  · rfl

@[simp] theorem latchView_createEntry (source : Source) (trigger due : Word) :
    latchView (createEntry s c source trigger due) = latchView s := by
  unfold createEntry
  dsimp only
  split <;> simp

@[simp] theorem latchView_refuseTrigger (t : Trigger) (cause : MissedCause) :
    latchView (refuseTrigger s c t cause) = latchView s := by
  unfold refuseTrigger
  dsimp only
  split <;> exact latchView_submitMissed _

@[simp] theorem latchView_takeTrigger (t : Trigger) :
    latchView (takeTrigger s c t) = latchView s := by
  have haccept : ∀ b, latchView (acceptTrigger s c b t) = latchView s := fun b => by
    unfold acceptTrigger
    split <;> simp
  unfold takeTrigger
  dsimp only
  split
  · rfl
  · simp
  · simp
  all_goals
    split
    · rfl
    · split <;> simp [haccept]

@[simp] theorem latchView_actOnStall : latchView (actOnStall s c) = latchView s := by
  unfold actOnStall
  dsimp only
  split
  · split
    · next hacts =>
      simp only [Bool.and_eq_true] at hacts
      obtain ⟨⟨hservice, _⟩, _⟩ := hacts
      have hn := notForced_of_inService hservice
      split
      · exact (latchView_examineEnd (notForced_of_view (latchView_endFiring ..) hn) _).trans
          (latchView_endFiring ..)
      · have hclear : latchView (discardPending (clearFiring s c) c) = latchView s := by simp
        exact (latchView_leaveService (notForced_of_view hclear hn) _).trans hclear
    · rfl
  · rfl

theorem latchView_takePreset (k : Word) (presets : List Word) :
    latchView (s.modChan c fun ch => takePreset k { ch with presets := presets }) =
      latchView s := by
  refine latchView_modChan ?_ ?_
  all_goals
    unfold takePreset
    dsimp only
    split <;> rfl

/-! ### HALT and quiesce -/

theorem latchView_haltChannel (hn : (s.chan c).state ≠ .forced) :
    latchView (haltChannel s c) = latchView s := by
  have hended : latchView (discardPending (flushQueue (abortFiring s c .abortedHalt) c .halted) c) =
      latchView s := by simp
  refine (latchView_modChan_of_notForced (notForced_of_view hended hn) rfl ?_).trans hended
  nofun

theorem notForced_of_haltable {ch : Channel} (h : ch.haltable = true) : ch.state ≠ .forced := by
  intro hforced
  simp [Channel.haltable, hforced] at h

@[simp] theorem latchView_quiesce : latchView (quiesce s) = latchView s :=
  latchView_foldl _ _ (fun u c => by
    unfold quiesceChannel
    split
    · next h => exact latchView_haltChannel (notForced_of_haltable h)
    · rfl) s

end

/-! ### The arbiter, the receiver and the session -/

/-- From `s` to `t` the link and the session move, and nothing else. -/
def MovesLink (s t : State) : Prop := t = { s with link := t.link, session := t.session }

theorem MovesLink.trans {s t u : State} (h : MovesLink s t) (h' : MovesLink t u) :
    MovesLink s u := Eq.trans h' (by rw [h])

theorem MovesLink.latchView {s t : State} (h : MovesLink s t) : latchView t = latchView s := by
  rw [h]
  rfl

theorem movesLink_arbitrate (s : State) : MovesLink s (arbitrate s) := arbitrate_eq s

/-- A good frame moves the link and the silence timer only (R144). -/
theorem movesLink_acceptFrame (s : State) (r : Request) : MovesLink s (acceptFrame s r) := by
  have hsilence : MovesLink s (restartSilence s) := by
    unfold restartSilence
    split <;> exact rfl
  have henqueue : ∀ u, MovesLink u (enqueueRequest u r) := fun u => by
    unfold enqueueRequest
    split <;> exact rfl
  have hrepeat : ∀ u e, MovesLink u (repeatReply u e) := fun u e => by
    unfold repeatReply
    split
    · exact rfl
    · split <;> exact rfl
  unfold acceptFrame
  dsimp only
  split
  · split
    · exact hsilence.trans (hrepeat _ _)
    · split
      · exact hsilence
      · exact hsilence.trans (henqueue _)
  · exact hsilence.trans (henqueue _)

/-- A received byte moves the link and the silence timer only (R142, R144). -/
theorem movesLink_receive (b : Byte) (s : State) : MovesLink s (receive b s) := by
  have hjudge : ∀ len kept crc, MovesLink s (judgeFrame (setFramer s .hunt) len kept crc) :=
    fun len kept crc => by
      have hframer : MovesLink s (setFramer s .hunt) := rfl
      unfold judgeFrame
      split
      · exact rfl
      · split
        · exact hframer.trans (movesLink_acceptFrame _ _)
        · exact hframer
  unfold receive
  split
  · split <;> exact rfl
  · split <;> exact rfl
  · exact rfl
  · exact rfl
  · exact (hjudge _ _ _).trans (movesLink_arbitrate _)

@[simp] theorem latchView_arbitrateCarry (s : State) (carry : Int) :
    latchView (arbitrateCarry s carry) = latchView s :=
  MovesLink.latchView (arbitrateCarry_eq s carry)

@[simp] theorem latchView_arbitrate (s : State) : latchView (arbitrate s) = latchView s :=
  (movesLink_arbitrate s).latchView

@[simp] theorem latchView_receive (b : Byte) (s : State) :
    latchView (receive b s) = latchView s := (movesLink_receive b s).latchView

@[simp] theorem latchView_concludeRequest (r : Request) (f : Frame) (s : State) :
    latchView (concludeRequest r f s) = latchView s :=
  latchView_of_fields (concludeRequest_cutoff r f s) (concludeRequest_channels r f s)

@[simp] theorem latchView_closeSession (s : State) (cause : CloseCause) :
    latchView (closeSession s cause) = latchView s := by
  obtain ⟨_, heq⟩ := closeSession_spec s _ cause rfl
  exact latchView_of_fields (by rw [heq]) (by rw [heq])

/-! ### The line and the capture inputs -/

/-- A move of every channel that leaves membership and FORCED as they are. -/
theorem latchView_map {s t : State} {f : Channel → Channel} (hcutoff : t.cutoff = s.cutoff)
    (hchan : t.channels = s.channels.map f) (hf : ∀ ch, (f ch).forcing = ch.forcing) :
    latchView t = latchView s := by
  have hforcing : ∀ c, (t.chan c).forcing = (s.chan c).forcing := fun c => by
    have hc : t.chan c = f (s.chan c) := by simp [State.chan, hchan]
    rw [hc, hf]
  simp only [latchView, hcutoff, hforcing]

@[simp] theorem latchView_stallLine (s : State) : latchView (stallLine s) = latchView s :=
  latchView_map rfl rfl fun _ => by split <;> rfl

@[simp] theorem latchView_presetLine (v : Word) (s : State) :
    latchView (presetLine v s) = latchView s :=
  latchView_map rfl rfl fun _ => by split <;> rfl

@[simp] theorem latchView_riseLine (s : State) : latchView (riseLine s) = latchView s := by
  unfold riseLine
  dsimp only
  split <;> rfl

@[simp] theorem latchView_applyLineSettings (s : State) :
    latchView (applyLineSettings s) = latchView s := by
  have hfilter : ∀ u, latchView (applyLineFilter u) = latchView u := fun u => by
    unfold applyLineFilter
    split
    · exact latchView_riseLine u
    · rfl
    · rfl
  have hlimit : ∀ u, latchView (applyStallLimit u) = latchView u := fun u => by
    unfold applyStallLimit
    split
    · rfl
    · split
      · exact latchView_stallLine u
      · rfl
  unfold applyLineSettings
  dsimp only
  split
  · split
    · rw [hlimit, hfilter]; rfl
    · rw [hfilter, hlimit]; rfl
  · rw [hlimit, hfilter]

@[simp] theorem latchView_acceptEdge (s : State) (i : Fin 4) (level : Level) :
    latchView (acceptEdge s i level) = latchView s := by
  have hroute : ∀ e u id, latchView (deliverRoute i e u id) = latchView u := fun e u id => by
    unfold deliverRoute
    split
    · split <;> simp
    · rfl
  have hoffer : ∀ e u c, latchView (offerEdge i e u c) = latchView u := fun e u c => by
    unfold offerEdge
    split
    · split <;> simp
    · rfl
  unfold acceptEdge
  dsimp only
  rw [latchView_foldl _ _ (hoffer _), latchView_foldl _ _ (hroute _)]
  split
  · rw [logEvent_eq]; rfl
  · rfl

@[simp] theorem latchView_tick (pins : Pins) (s : State) :
    latchView (tick pins s) = latchView s := by
  unfold tick
  dsimp only
  split <;> rfl

/-! ## The latch moves -/

theorem trip_chan_of_clear {s : State} {cause : CutoffCause} (h : s.cutoff.latch = .clear)
    (c : Fin 8) :
    (trip s cause).chan c =
      if (s.chan c).member then (s.chan c).stopped .forced (s.chan c).safeLevel else s.chan c := by
  rw [trip_of_clear h]
  exact Vector.getElem_ofFn _

/-- A trip from CLEAR leaves every member FORCED and one cause in the set, which is PIN while
CUTOFF_N is asserted (R127, R131). -/
theorem cutoffLaw_trip_of_clear {s : State} {cause : CutoffCause} (hlatch : s.cutoff.latch = .clear)
    (hpin : s.cutoff.level = .low → cause = .pin) : CutoffLaw (trip s cause) := by
  have hcutoff : (Machine.trip s cause).cutoff =
      { s.cutoff with latch := .tripped, causes := CauseSet.empty.add cause } := by
    rw [trip_of_clear hlatch]
  have hmember : ∀ c, ((Machine.trip s cause).chan c).member = true →
      ((Machine.trip s cause).chan c).state = .forced := fun c => by
    rw [trip_chan_of_clear hlatch]
    split
    · exact fun _ => rfl
    · next hother => exact fun h => absurd h hother
  have hcause := CauseSet.ne_empty_of_has (CauseSet.has_add_same CauseSet.empty cause)
  unfold CutoffLaw
  rw [hcutoff]
  refine ⟨fun _ => hmember, nofun, ⟨nofun, fun h => absurd h hcause⟩, fun hlow => ⟨rfl, ?_⟩⟩
  rw [hpin hlow]
  rfl

/-- From a state in which latch, causes and channels agree, a trip leaves the latch law, also where
it is the trip of an assertion just accepted (R127, R128, R131, R135). -/
theorem LatchAgrees.trip {s : State} {cause : CutoffCause} (hs : LatchAgrees s)
    (hpin : s.cutoff.level = .low →
      cause = .pin ∨ s.cutoff.latch = .tripped ∧ s.cutoff.causes.pin = true) :
    CutoffLaw (trip s cause) := by
  obtain ⟨hmembers, hclear, hempty⟩ := hs
  cases hlatch : s.cutoff.latch with
  | clear =>
    refine cutoffLaw_trip_of_clear hlatch fun hlow => ?_
    rcases hpin hlow with h | ⟨h, _⟩
    · exact h
    · exact absurd (hlatch.symm.trans h) (by decide)
  | tripped =>
    cases hc : s.cutoff.causes.has cause with
    | true =>
      rw [trip_of_knownCause hlatch hc]
      refine cutoffLaw_iff.mpr ⟨⟨hmembers, hclear, hempty⟩, fun hlow => ⟨hlatch, ?_⟩⟩
      rcases hpin hlow with rfl | ⟨_, h⟩
      · exact hc
      · exact h
    | false =>
      rw [trip_of_newCause hlatch hc]
      refine ⟨hmembers, hclear, ⟨fun h => absurd (hlatch.symm.trans h) (by decide), fun h =>
        absurd h (CauseSet.ne_empty_of_has (CauseSet.has_add_same _ cause))⟩, fun hlow =>
        ⟨hlatch, ?_⟩⟩
      rcases hpin hlow with rfl | ⟨_, h⟩
      · rfl
      · exact CauseSet.pin_add_of_pin h cause

theorem CutoffLaw.trip {s : State} (hs : CutoffLaw s) (cause : CutoffCause) :
    CutoffLaw (trip s cause) := by
  obtain ⟨hagrees, hpin⟩ := cutoffLaw_iff.mp hs
  exact hagrees.trip fun hlow => .inr (hpin hlow)

/-- An assertion of CUTOFF_N accepted, and the trip it makes (R128). -/
theorem CutoffLaw.trip_of_accepted {s : State} (hs : CutoffLaw s) (cutoff : Cutoff)
    (hlatch : cutoff.latch = s.cutoff.latch) (hcauses : cutoff.causes = s.cutoff.causes) :
    CutoffLaw (Machine.trip { s with cutoff := cutoff } .pin) :=
  (hs.agrees.of_cutoff cutoff hlatch hcauses).trip fun _ => .inl rfl

/-- A release with CUTOFF_N not asserted leaves a CLEAR latch, no cause and no FORCED channel
(R136). -/
theorem cutoffLaw_releaseCutoff {s : State} (hlevel : s.cutoff.level ≠ .low) :
    CutoffLaw (releaseCutoff s) := by
  refine (latchAgrees_of_clear rfl rfl fun c => ?_).of_notAsserted hlevel
  rw [releaseCutoff_chan]
  exact releaseForced_state_ne _

/-- Membership is not given to a channel while the latch is TRIPPED, so that every member stays
FORCED (R127, R137). -/
theorem CutoffLaw.setOptions {s : State} (hs : CutoffLaw s) (c : Fin 8) (member : Bool)
    (safe : Level) : CutoffLaw (setOptions s c member safe).2 := by
  unfold Machine.setOptions
  split
  · exact hs
  next hlatch =>
  split
  · exact hs
  dsimp only
  obtain ⟨hmembers, hclear, hempty, hpin⟩ := hs
  refine ⟨fun htripped d hd => ?_, fun h d => ?_, hempty, hpin⟩
  all_goals
    rw [modChan_eq, setChan_chan] at *
    split
  · next hdc =>
    rw [if_pos hdc] at hd
    exact absurd ⟨hd, htripped⟩ hlatch
  · next hdc =>
    rw [if_neg hdc] at hd
    exact hmembers htripped d hd
  · exact hclear h c
  · exact hclear h d

/-- After RESTART every channel is a member, and FORCED exactly while the latch is TRIPPED (R139,
R157). -/
theorem CutoffLaw.softReset {s : State} (hs : CutoffLaw s) : CutoffLaw (softReset s) := by
  obtain ⟨heq, hchan, _⟩ := softReset_spec s _ rfl
  obtain ⟨_, _, hempty, hpin⟩ := hs
  generalize Machine.softReset s = t at heq hchan ⊢
  have hcutoff : t.cutoff = { s.cutoff with candidate := none } := by rw [heq]
  unfold CutoffLaw
  simp only [hchan, hcutoff]
  refine ⟨fun h _ _ => if_pos h, fun h _ => ?_, hempty, hpin⟩
  rw [if_neg (by rw [h]; decide)]
  decide

theorem CutoffLaw.endTransmission {s : State} (hs : CutoffLaw s) (left : Int) :
    CutoffLaw (endTransmission s left) := by
  have hlink : ∀ link, CutoffLaw { s with link := link } := fun _ => hs.of_view rfl
  unfold Machine.endTransmission
  dsimp only
  split
  · exact (hlink _).softReset
  · exact (hlink _).of_view (latchView_arbitrateCarry _ _)

/-- The end of start-up takes the level of CUTOFF_N, and trips the latch when it is LOW (R139). -/
theorem CutoffLaw.endStartUp {s : State} (hs : CutoffLaw s) : CutoffLaw (endStartUp s) := by
  have htaken : ∀ up link line cutoff, cutoff.latch = s.cutoff.latch →
      cutoff.causes = s.cutoff.causes → LatchAgrees
        { s with startUp := up, link := link, line := line, cutoff := cutoff } :=
    fun _ _ _ _ hlatch hcauses => hs.agrees.of_fields hlatch hcauses rfl
  unfold Machine.endStartUp
  dsimp only
  split
  · refine LatchAgrees.trip (htaken _ _ _ _ ?_ ?_) fun _ => .inl rfl <;> rfl
  · next hhigh => refine LatchAgrees.of_notAsserted (htaken _ _ _ _ ?_ ?_) hhigh <;> rfl

/-- After hard reset the latch is CLEAR and every channel OFF (R47, R139). -/
theorem cutoffLaw_hardReset (link : Link) (pins : Pins) (n : Nat) (pending : List Instr) :
    CutoffLaw { State.reset with link := link, pins := pins, freeCount := n, pending := pending } :=
  (latchAgrees_of_clear rfl rfl fun c => by
    simp [State.chan, State.reset, Channel.init]).of_notAsserted nofun

/-! ## The requests -/

/-- The execution of a request with this answer keeps the latch law. -/
def KeepsLatch (answer : State → List Byte → Answer × State) : Prop :=
  ∀ s payload, CutoffLaw s → CutoffLaw (answer s payload).2

theorem keepsLatch_of_view {answer : State → List Byte → Answer × State}
    (h : ∀ s payload, latchView (answer s payload).2 = latchView s) : KeepsLatch answer :=
  fun s payload hs => hs.of_view (h s payload)

theorem takeRequest_latchView {mine : Byte → Bool} {s s0 : State} {r : Request}
    (h : takeRequest mine s = some (r, s0)) : latchView s0 = latchView s := by
  unfold takeRequest at h
  split at h
  · cases h
  · split at h
    · cases h
      rfl
    · cases h

theorem CutoffLaw.serveRequest {s : State} {answer : State → List Byte → Answer × State}
    (hs : CutoffLaw s) (h : KeepsLatch answer) (k : Byte) :
    CutoffLaw (serveRequest k answer s) := by
  unfold Machine.serveRequest
  split
  · exact hs
  · next htake =>
    exact (h _ _ (hs.of_view (takeRequest_latchView htake))).of_view
      (latchView_concludeRequest _ _ _)

theorem CutoffLaw.inSession {s : State} {n : Nat} {k : Answer × State} (hs : CutoffLaw s)
    (hk : CutoffLaw k.2) : CutoffLaw (inSession s n k).2 := by
  unfold Machine.inSession
  split
  · exact hs
  · exact hk

theorem latchView_inSession {s : State} {n : Nat} {k : Answer × State}
    (hk : latchView k.2 = latchView s) : latchView (inSession s n k).2 = latchView s := by
  unfold inSession
  split
  · rfl
  · exact hk

/-! ### Requests to the program store -/

theorem latchView_changeProgram {s : State} {id : Byte} {k : Fin 32 → Answer × State}
    (hk : ∀ q, latchView (k q).2 = latchView s) :
    latchView (changeProgram s id k).2 = latchView s := by
  unfold changeProgram
  split
  · rfl
  · split
    · rfl
    · exact hk _

theorem keepsLatch_defineProgram : KeepsLatch answerDefineProgram := by
  refine keepsLatch_of_view fun s payload => ?_
  unfold answerDefineProgram
  split
  · refine latchView_changeProgram fun q => ?_
    unfold defineProgram
    repeat' split
    all_goals rfl
  · rfl

theorem keepsLatch_appendSteps : KeepsLatch answerAppendSteps := by
  refine keepsLatch_of_view fun s payload => ?_
  unfold answerAppendSteps
  split
  · split
    · refine latchView_changeProgram fun q => ?_
      unfold appendSteps
      dsimp only
      repeat' split
      all_goals rfl
    · rfl
  · rfl

theorem keepsLatch_sealProgram : KeepsLatch answerSealProgram := by
  refine keepsLatch_of_view fun s payload => ?_
  unfold answerSealProgram
  split
  · refine latchView_changeProgram fun q => ?_
    unfold sealProgram
    dsimp only
    repeat' split
    all_goals rfl
  · rfl

theorem keepsLatch_discardProgram : KeepsLatch answerDiscardProgram := by
  refine keepsLatch_of_view fun s payload => ?_
  unfold answerDiscardProgram
  split
  · refine latchView_changeProgram fun q => ?_
    unfold discardProgram
    split <;> rfl
  · rfl

theorem keepsLatch_deleteProgram : KeepsLatch answerDeleteProgram := by
  refine keepsLatch_of_view fun s payload => ?_
  unfold answerDeleteProgram
  split
  · refine latchView_changeProgram fun q => ?_
    unfold deleteProgram
    repeat' split
    all_goals rfl
  · rfl

theorem keepsLatch_programInfo : KeepsLatch answerProgramInfo := by
  refine keepsLatch_of_view fun s payload => ?_
  unfold answerProgramInfo
  split
  · refine latchView_inSession ?_
    split <;> rfl
  · rfl

theorem keepsLatch_programRead : KeepsLatch answerProgramRead := by
  refine keepsLatch_of_view fun s payload => ?_
  unfold answerProgramRead
  split
  · refine latchView_inSession ?_
    split <;> rfl
  · rfl

/-! ### Requests to a channel -/

theorem keepsLatch_channelRequest {n : Nat} {k : State → Fin 8 → Answer × State}
    (h : ∀ s c, latchView (k s c).2 = latchView s) : KeepsLatch (channelRequest n k) := by
  refine keepsLatch_of_view fun s payload => ?_
  unfold channelRequest
  split
  · refine latchView_inSession ?_
    split
    · rfl
    · exact h s _
  · rfl

/-- ENABLE takes an OFF channel into service (R24). -/
theorem latchView_enableChannel (s : State) (c : Fin 8) :
    latchView (enableChannel s c).2 = latchView s := by
  unfold enableChannel
  dsimp only
  split
  · rfl
  split
  · rfl
  next hoff =>
  have hn : (s.chan c).state ≠ .forced := fun h => hoff (by rw [h]; decide)
  split
  · rfl
  split
  · exact latchView_modChan_of_notForced hn rfl nofun
  · exact (latchView_startPass _ _).trans (latchView_modChan_of_notForced hn rfl nofun)

theorem latchView_stopChannel (s : State) (c : Fin 8) :
    latchView (stopChannel s c).2 = latchView s := by
  unfold stopChannel
  split
  · rfl
  · rfl
  · rfl
  · next hstate =>
    have hflush := latchView_flushQueue (s := s) (c := c) .stopping
    have hn := notForced_of_view hflush (by rw [hstate]; decide)
    refine (latchView_modChan_of_notForced hn rfl ?_).trans hflush
    nofun
  · next hstate =>
    exact latchView_modChan_of_notForced (by rw [hstate]; decide) rfl nofun

theorem latchView_haltRequest (s : State) (c : Fin 8) :
    latchView (haltRequest s c).2 = latchView s := by
  unfold haltRequest
  split
  · rfl
  next hn =>
  split
  · exact latchView_haltChannel hn
  · rfl

theorem latchView_bindProgram (s : State) (c : Fin 8) (b : Binding) :
    latchView (bindProgram s c b).2 = latchView s := by
  have hstage : latchView (stageBinding s c b) = latchView s := by
    unfold stageBinding
    dsimp only
    split <;> simp
  have hinstall : latchView (installBinding s c b) = latchView s := by
    unfold installBinding
    dsimp only
    split <;> simp
  unfold bindProgram
  dsimp only
  split
  · rfl
  split
  · rfl
  split
  · rfl
  split
  · exact hinstall
  split
  · rfl
  · exact hstage

theorem latchView_bindNothing (s : State) (c : Fin 8) :
    latchView (bindNothing s c).2 = latchView s := by
  unfold bindNothing
  split
  · rfl
  · simp [removeBinding]
  · exact latchView_discardPending

theorem keepsLatch_bind : KeepsLatch answerBind := by
  refine keepsLatch_of_view fun s payload => ?_
  unfold answerBind
  split
  · refine latchView_inSession ?_
    split
    · rfl
    split
    · exact latchView_bindNothing s _
    split
    · rfl
    split
    · rfl
    · exact latchView_bindProgram s _ _
  · rfl

theorem keepsLatch_fire : KeepsLatch answerFire := by
  refine keepsLatch_of_view fun s payload => ?_
  have hfire : ∀ c tag presence due,
      latchView (fireChannel s c tag presence due).2 = latchView s := fun c tag presence due => by
    unfold fireChannel
    dsimp only
    split
    · rfl
    split
    · rfl
    split
    · rfl
    split
    · rfl
    split
    · rfl
    · exact latchView_createEntry _ _ _
  unfold answerFire
  split
  · refine latchView_inSession ?_
    split
    · rfl
    · exact hfire _ _ _ _
  · rfl

theorem keepsLatch_setChannelOptions : KeepsLatch answerSetChannelOptions := by
  intro s payload hs
  unfold answerSetChannelOptions
  split
  · refine hs.inSession ?_
    split
    · exact hs
    split
    · exact hs.setOptions _ _ _
    · exact hs
  · exact hs

/-! ### Requests to the part, the cutoff and the session -/

theorem keepsLatch_ident : KeepsLatch answerIdent := by
  refine keepsLatch_of_view fun s payload => ?_
  unfold answerIdent
  split <;> rfl

theorem keepsLatch_status : KeepsLatch answerStatus := by
  refine keepsLatch_of_view fun s payload => ?_
  unfold answerStatus
  split
  · split <;> rfl
  · rfl

theorem keepsLatch_restart : KeepsLatch answerRestart := by
  refine keepsLatch_of_view fun s payload => ?_
  unfold answerRestart
  split <;> rfl

theorem keepsLatch_cutoff : KeepsLatch answerCutoff := by
  intro s payload hs
  unfold answerCutoff
  split
  · exact hs.trip .request
  · exact hs

theorem keepsLatch_cutoffRelease : KeepsLatch answerCutoffRelease := by
  intro s payload hs
  unfold answerCutoffRelease
  split
  · refine hs.inSession ?_
    split
    · exact hs
    next hlevel =>
    split
    · exact hs
    · exact cutoffLaw_releaseCutoff hlevel
  · exact hs

theorem keepsLatch_openSession : KeepsLatch answerOpenSession := by
  refine keepsLatch_of_view fun s payload => ?_
  have hnew : ∀ u session link,
      latchView { u with session := session, link := link } = latchView u := fun _ _ _ => rfl
  have hopen : ∀ silence resend mask,
      latchView (openSession s silence resend mask) = latchView s := fun silence resend mask => by
    unfold openSession
    dsimp only
    split
    · exact (hnew _ _ _).trans (latchView_closeSession s .reopen)
    · rfl
  unfold answerOpenSession
  split
  · dsimp only
    split
    · rfl
    split
    · rfl
    split
    · rfl
    · exact hopen _ _ _
  · rfl

theorem keepsLatch_closeSession : KeepsLatch answerCloseSession := by
  refine keepsLatch_of_view fun s payload => ?_
  unfold answerCloseSession
  split
  · refine latchView_inSession ?_
    split
    · rfl
    all_goals dsimp only
    · rw [latchView_closeSession, latchView_quiesce]
    · rw [latchView_closeSession]
  · rfl

theorem keepsLatch_ackReports : KeepsLatch answerAckReports := by
  refine keepsLatch_of_view fun s payload => ?_
  unfold answerAckReports
  split
  · refine latchView_inSession ?_
    split <;> rfl
  · rfl

/-! ### Requests to the line unit and the capture unit -/

theorem keepsLatch_timebaseConfig : KeepsLatch answerTimebaseConfig := by
  refine keepsLatch_of_view fun s payload => ?_
  unfold answerTimebaseConfig
  split
  · refine latchView_inSession ?_
    split
    · rfl
    dsimp only
    split
    · rfl
    · exact (latchView_applyLineSettings _).trans rfl
  · rfl

theorem keepsLatch_setLine : KeepsLatch answerSetLine := by
  refine keepsLatch_of_view fun s payload => ?_
  unfold answerSetLine
  split
  · exact latchView_inSession (latchView_presetLine _ s)
  · rfl

theorem keepsLatch_readTime : KeepsLatch answerReadTime := by
  refine keepsLatch_of_view fun s payload => ?_
  unfold answerReadTime
  split
  · exact latchView_inSession rfl
  · rfl

theorem keepsLatch_captureConfig : KeepsLatch answerCaptureConfig := by
  refine keepsLatch_of_view fun s payload => ?_
  have hconfig : ∀ i m l f, latchView (configureCapture s i m l f) = latchView s :=
    fun i m l f => by
      unfold configureCapture
      dsimp only
      split
      · exact (latchView_acceptEdge _ _ _).trans rfl
      · rfl
  unfold answerCaptureConfig
  split
  · refine latchView_inSession ?_
    split
    · rfl
    split
    · exact hconfig _ _ _ _
    · rfl
  · rfl

theorem keepsLatch_routeAdd : KeepsLatch answerRouteAdd := by
  refine keepsLatch_of_view fun s payload => ?_
  have hadd : ∀ r, latchView (addRoute s r).2 = latchView s := fun r => by
    unfold addRoute
    split
    · rfl
    split <;> rfl
  unfold answerRouteAdd
  split
  · refine latchView_inSession ?_
    split
    · exact hadd _
    · rfl
  · rfl

theorem keepsLatch_routeRemove : KeepsLatch answerRouteRemove := by
  refine keepsLatch_of_view fun s payload => ?_
  unfold answerRouteRemove
  split
  · refine latchView_inSession ?_
    split
    · rfl
    split <;> rfl
  · rfl

theorem keepsLatch_routeList : KeepsLatch answerRouteList := by
  refine keepsLatch_of_view fun s payload => ?_
  unfold answerRouteList
  split
  · exact latchView_inSession rfl
  · rfl

theorem keepsLatch_readCaptures : KeepsLatch answerReadCaptures := by
  refine keepsLatch_of_view fun s payload => ?_
  unfold answerReadCaptures
  split
  · refine latchView_inSession ?_
    split
    · rfl
    split <;> rfl
  · rfl

theorem keepsLatch_captureStream : KeepsLatch answerCaptureStream := by
  refine keepsLatch_of_view fun s payload => ?_
  have hset : ∀ on, latchView (setStreaming s on) = latchView s := fun on => by
    unfold setStreaming
    dsimp only
    split <;> rfl
  unfold answerCaptureStream
  split
  · refine latchView_inSession ?_
    split
    · rfl
    · exact hset _
  · rfl

/-! ## Every command -/

/-- The outcome is a next state, and the latch law holds there. -/
def LatchNext (o : Host.Outcome State Fault Refusal) : Prop := ∃ t, o = .next t ∧ CutoffLaw t

theorem CutoffLaw.serve {s : State} {k : Byte} {answer : State → List Byte → Answer × State}
    (hs : CutoffLaw s) (h : KeepsLatch answer) :
    LatchNext (.next (Machine.serveRequest k answer s)) :=
  ⟨_, rfl, hs.serveRequest h k⟩

/-- Where a happening is not there, nothing changes (log 2). -/
theorem CutoffLaw.happening {s t : State} {p : Prop} [Decidable p] (hs : CutoffLaw s)
    (h : p → CutoffLaw t) : LatchNext (.next (if p then t else s)) :=
  ⟨_, rfl, by split; exacts [h ‹p›, hs]⟩

theorem CutoffLaw.next_view {s t : State} (hs : CutoffLaw s) (h : latchView t = latchView s) :
    LatchNext (.next t) := ⟨_, rfl, hs.of_view h⟩

/-- Every command has a next state, and it keeps the latch law. -/
theorem CutoffLaw.exec {s : State} (hs : CutoffLaw s) (i : Instr) : LatchNext (exec i s) := by
  cases i with
  | ident => exact hs.serve keepsLatch_ident
  | status => exact hs.serve keepsLatch_status
  | openSession => exact hs.serve keepsLatch_openSession
  | closeSession => exact hs.serve keepsLatch_closeSession
  | ackReports => exact hs.serve keepsLatch_ackReports
  | restart => exact hs.serve keepsLatch_restart
  | cutoff => exact hs.serve keepsLatch_cutoff
  | cutoffRelease => exact hs.serve keepsLatch_cutoffRelease
  | setChannelOptions => exact hs.serve keepsLatch_setChannelOptions
  | defineProgram => exact hs.serve keepsLatch_defineProgram
  | appendSteps => exact hs.serve keepsLatch_appendSteps
  | sealProgram => exact hs.serve keepsLatch_sealProgram
  | discardProgram => exact hs.serve keepsLatch_discardProgram
  | deleteProgram => exact hs.serve keepsLatch_deleteProgram
  | programInfo => exact hs.serve keepsLatch_programInfo
  | programRead => exact hs.serve keepsLatch_programRead
  | bind => exact hs.serve keepsLatch_bind
  | enable => exact hs.serve (keepsLatch_channelRequest latchView_enableChannel)
  | stop => exact hs.serve (keepsLatch_channelRequest latchView_stopChannel)
  | halt => exact hs.serve (keepsLatch_channelRequest latchView_haltRequest)
  | fire => exact hs.serve keepsLatch_fire
  | channelStatus => exact hs.serve (keepsLatch_channelRequest fun _ _ => rfl)
  | timebaseConfig => exact hs.serve keepsLatch_timebaseConfig
  | setLine => exact hs.serve keepsLatch_setLine
  | readTime => exact hs.serve keepsLatch_readTime
  | captureConfig => exact hs.serve keepsLatch_captureConfig
  | routeAdd => exact hs.serve keepsLatch_routeAdd
  | routeRemove => exact hs.serve keepsLatch_routeRemove
  | routeList => exact hs.serve keepsLatch_routeList
  | readCaptures => exact hs.serve keepsLatch_readCaptures
  | captureStream => exact hs.serve keepsLatch_captureStream
  | reject =>
    refine hs.next_view ?_
    split
    · rfl
    · next htake => exact (latchView_concludeRequest _ _ _).trans (takeRequest_latchView htake)
  | frameComplete b => exact hs.happening fun _ => hs.of_view (latchView_receive b s)
  | invalidLenByte b => exact hs.happening fun _ => hs.of_view (latchView_receive b s)
  | receivedByte b => exact hs.happening fun _ => hs.of_view (latchView_receive b s)
  | interByteGapTimeout => exact hs.happening fun _ => hs.of_view rfl
  | transmissionEnd =>
    refine ⟨_, rfl, ?_⟩
    split
    · exact hs
    split
    · exact hs.endTransmission _
    · exact hs
  | hardReset cause baud1 baud0 => exact hs.happening fun _ => cutoffLaw_hardReset _ _ _ _
  | startUpEnd => exact hs.happening fun _ => hs.endStartUp.of_view (latchView_arbitrate _)
  | lineRise => exact hs.happening fun _ => hs.of_view (by simp)
  | lineFall => exact hs.happening fun _ => hs.of_view rfl
  | lineStallDetected => exact hs.happening fun _ => hs.of_view (by simp)
  | captureEdge i =>
    refine hs.next_view ?_
    split <;> simp
  | cutoffNAssertion =>
    refine hs.happening fun _ => CutoffLaw.of_view (hs.trip_of_accepted _ ?_ ?_)
      (latchView_arbitrate _)
    all_goals rfl
  | cutoffNDeassertion =>
    refine hs.happening fun _ => LatchAgrees.of_notAsserted (hs.agrees.of_cutoff _ ?_ ?_) nofun
    all_goals rfl
  | silenceExpiry => exact hs.happening fun _ => (hs.trip .silence).of_view (by simp)
  | resendExpiry => exact hs.happening fun _ => hs.of_view (latchView_arbitrate _)
  | headEntryDue c => exact hs.happening fun _ => hs.of_view (by simp)
  | stepEnd c =>
    refine hs.next_view ?_
    split
    · next hreached =>
      split
      · exact (latchView_arbitrate _).trans
          (latchView_endStep (notForced_of_stepEndReached hreached) _ _ _)
      · rfl
    · rfl
  | holdUntilTimeout c =>
    refine hs.next_view ?_
    split
    · next hreached =>
      split
      · exact (latchView_arbitrate _).trans
          (latchView_endStep (s := submit s _) (notForced_of_stepEndReached hreached) _ _ _)
      · rfl
    · rfl
  | holdUntilEdge c =>
    refine hs.next_view ?_
    split <;> simp
  | routeTrigger c =>
    refine hs.next_view ?_
    split <;> simp
  | stallNotice c =>
    refine hs.next_view ?_
    split <;> simp
  | linePresetTaken c =>
    refine hs.next_view ?_
    split
    · rfl
    · exact latchView_takePreset _ _
  | entryOverdueDiscard c => exact hs.happening fun _ => hs.of_view (by simp)
  | timeBaseTick pins => exact hs.next_view (latchView_tick pins s)

/-- Settles O57: the front command is run on a state with the same view, and every command keeps the
latch law. -/
theorem stepKeepsLatchLaw : Obligations.StepKeepsLatchLaw := by
  intro s t hs hstep
  unfold step at hstep
  split at hstep
  · cases hstep
    exact hs
  · next i rest _ =>
    have hrest : CutoffLaw { s with pending := rest } := hs.of_view rfl
    obtain ⟨u, hu, hlaw⟩ := hrest.exec i
    rw [hu] at hstep
    cases hstep
    exact hlaw

end Sys2Proof.Machine

namespace Sys2Proof.Machine

/-! ## What the work of the other blocks leaves to the link -/

/-- What the laws of the link read of a state, the report queue aside: the link, the session state
and whether start-up is in progress. -/
def linkView (s : State) : Link × SessionState × Bool := (s.link, s.session.state, s.startUp)

theorem linkView_eq_iff {s t : State} :
    linkView t = linkView s ↔ t.link = s.link ∧ t.session.state = s.session.state ∧
      t.startUp = s.startUp := by simp [linkView]

/-! ### The channel engine -/

section
variable (s : State) (c : Fin 8)

@[simp] theorem linkView_modChan (f : Channel → Channel) :
    linkView (s.modChan c f) = linkView s := rfl

@[simp] theorem linkView_releaseUse (b : Option Binding) :
    linkView (releaseUse s b) = linkView s := by simp [linkView]

@[simp] theorem linkView_submit (b : ReportBody) : linkView (submit s b) = linkView s := by
  simp [linkView]

theorem linkView_foldl {α : Type} (f : State → α → State) (l : List α)
    (h : ∀ s a, linkView (f s a) = linkView s) : linkView (l.foldl f s) = linkView s := by
  induction l generalizing s with
  | nil => rfl
  | cons a l ih => rw [List.foldl_cons, ih, h]

@[simp] theorem linkView_submitMissed (r : MissedReport) :
    linkView (submitMissed s r) = linkView s := linkView_submit _ _

@[simp] theorem linkView_dropHeads (cause : MissedCause) (p : Entry → Bool) :
    linkView (dropHeads s c cause p) = linkView s :=
  linkView_foldl _ _ _ fun u _ => linkView_submitMissed u _

@[simp] theorem linkView_flushQueue (cause : MissedCause) :
    linkView (flushQueue s c cause) = linkView s := by
  unfold flushQueue
  split
  · rfl
  · exact linkView_submitMissed _ _

@[simp] theorem linkView_beginStep (b : Binding) (f : Firing) (i : Nat) (p : Word) :
    linkView (beginStep s c b f i p) = linkView s := rfl

@[simp] theorem linkView_startFiring (b : Binding) (x : Entry) (p : Word) :
    linkView (startFiring s c b x p) = linkView s := rfl

@[simp] theorem linkView_startPass (b : Binding) (p : Word) :
    linkView (startPass s c b p) = linkView s := rfl

@[simp] theorem linkView_clearFiring : linkView (clearFiring s c) = linkView s := rfl

@[simp] theorem linkView_endFiring (f : Firing) (e : Word) (o : FiringOutcome) :
    linkView (endFiring s c f e o) = linkView s := by
  unfold endFiring
  split
  · rfl
  · exact linkView_submit _ _

@[simp] theorem linkView_abortFiring (o : FiringOutcome) :
    linkView (abortFiring s c o) = linkView s := by
  unfold abortFiring
  split
  · rfl
  · exact linkView_endFiring _ _ _ _ _

@[simp] theorem linkView_discardPending : linkView (discardPending s c) = linkView s :=
  linkView_releaseUse _ _

@[simp] theorem linkView_applyPending : linkView (applyPending s c) = linkView s := by
  unfold applyPending
  split <;> simp

@[simp] theorem linkView_leaveService (cause : OffCause) :
    linkView (leaveService s c cause) = linkView s := linkView_submit _ _

@[simp] theorem linkView_restAfterFiring : linkView (restAfterFiring s c) = linkView s := by
  unfold restAfterFiring
  split
  · exact linkView_leaveService _ _ _
  · rfl

@[simp] theorem linkView_examineQueue (b : Binding) (e : Word) :
    linkView (examineQueue s c b e) = linkView s := by
  unfold examineQueue
  dsimp only
  split
  · simp
  · split <;> simp

@[simp] theorem linkView_examineEnd (e : Word) : linkView (examineEnd s c e) = linkView s := by
  unfold examineEnd
  dsimp only
  split <;> simp

@[simp] theorem linkView_wrapPoint (b : Binding) (f : Firing) (target : Option Nat) (e : Word) :
    linkView (wrapPoint s c b f target e) = linkView s := by
  unfold wrapPoint
  dsimp only
  split
  · simp
  · split <;> simp

@[simp] theorem linkView_jumpToLoop (b : Binding) (f : Firing) (e : Word) :
    linkView (jumpToLoop s c b f e) = linkView s := by
  unfold jumpToLoop
  cases b.mode <;> simp

@[simp] theorem linkView_endStep (b : Binding) (f : Firing) (e : Word) :
    linkView (endStep s c b f e) = linkView s := by
  unfold endStep
  dsimp only
  split
  · rfl
  split
  · simp
  split
  · simp
  · cases b.mode <;> simp

@[simp] theorem linkView_takeOffer (o : Offer) : linkView (takeOffer s c o) = linkView s := by
  unfold takeOffer
  split <;> simp

@[simp] theorem linkView_dueWhileRunning (b : Binding) :
    linkView (dueWhileRunning s c b) = linkView s := by
  unfold dueWhileRunning
  cases b.overlap <;> simp

@[simp] theorem linkView_handleDue : linkView (handleDue s c) = linkView s := by
  unfold handleDue
  dsimp only
  split
  · split
    · split
      · split <;> simp
      · split <;> simp
    · rfl
  · rfl

@[simp] theorem linkView_createEntry (source : Source) (trigger due : Word) :
    linkView (createEntry s c source trigger due) = linkView s := by
  unfold createEntry
  dsimp only
  split <;> simp

@[simp] theorem linkView_refuseTrigger (t : Trigger) (cause : MissedCause) :
    linkView (refuseTrigger s c t cause) = linkView s := by
  unfold refuseTrigger
  dsimp only
  split <;> exact linkView_submitMissed _ _

@[simp] theorem linkView_takeTrigger (t : Trigger) : linkView (takeTrigger s c t) = linkView s := by
  have haccept : ∀ b, linkView (acceptTrigger s c b t) = linkView s := fun b => by
    unfold acceptTrigger
    split <;> simp
  unfold takeTrigger
  dsimp only
  split
  · rfl
  · simp
  · simp
  all_goals
    split
    · rfl
    · split <;> simp [haccept]

@[simp] theorem linkView_actOnStall : linkView (actOnStall s c) = linkView s := by
  unfold actOnStall
  dsimp only
  split
  · split
    · split <;> simp
    · rfl
  · rfl

@[simp] theorem linkView_haltChannel : linkView (haltChannel s c) = linkView s := by
  simp [haltChannel]

@[simp] theorem linkView_quiesce : linkView (quiesce s) = linkView s :=
  linkView_foldl _ _ _ fun u d => by
    unfold quiesceChannel
    split
    · exact linkView_haltChannel u d
    · rfl

end

/-! ### The cutoff, the line and the capture inputs -/

section
variable (s : State)

@[simp] theorem linkView_trip (cause : CutoffCause) : linkView (trip s cause) = linkView s := by
  obtain ⟨_, _, hstate⟩ := unitView_eq_iff.mp (unitView_trip s cause)
  obtain ⟨_, _, heq⟩ := trip_frame s cause
  exact linkView_eq_iff.mpr ⟨by rw [heq], hstate, by rw [heq]⟩

@[simp] theorem linkView_riseLine : linkView (riseLine s) = linkView s := by
  unfold riseLine
  dsimp only
  split
  · exact linkView_submit _ _
  · rfl

@[simp] theorem linkView_stallLine : linkView (stallLine s) = linkView s :=
  linkView_eq_iff.mpr ⟨rfl, submit_state _ _, rfl⟩

@[simp] theorem linkView_applyLineSettings : linkView (applyLineSettings s) = linkView s := by
  have hfilter : ∀ u, linkView (applyLineFilter u) = linkView u := fun u => by
    unfold applyLineFilter
    split
    · exact linkView_riseLine u
    · rfl
    · rfl
  have hlimit : ∀ u, linkView (applyStallLimit u) = linkView u := fun u => by
    unfold applyStallLimit
    split
    · rfl
    · split
      · exact linkView_stallLine u
      · rfl
  unfold applyLineSettings
  dsimp only
  split
  · split
    · rw [hlimit, hfilter]; rfl
    · rw [hfilter, hlimit]; rfl
  · rw [hlimit, hfilter]

@[simp] theorem linkView_tryMoves : linkView (tryMoves s) = linkView s :=
  linkView_eq_iff.mpr ⟨rfl, moveCaptures_state _ _ _ _ _, rfl⟩

@[simp] theorem linkView_acceptEdge (i : Fin 4) (level : Level) :
    linkView (acceptEdge s i level) = linkView s := by
  have hlog : ∀ u l, linkView (logEvent u i l) = linkView u := fun u l => by
    unfold logEvent
    dsimp only
    split
    · rfl
    · exact linkView_tryMoves _
  have hhand : ∀ e u, linkView (handOn i e u) = linkView u := fun e u =>
    linkView_eq_iff.mpr ⟨handOn_link i e u, by rw [handOn_session], by rw [handOn_eq]⟩
  rw [acceptEdge_eq_handOn, hhand]
  unfold logEdge
  dsimp only
  split
  · exact hlog _ _
  · rfl

end


/-! ## What the arbiter does to the link -/

/-- From `s` to `t` the arbiter may have started a frame: the reply queue has not grown, TXD may
have become busy, and of the link nothing else has moved (R152). -/
structure MayStart (s t : State) : Prop where
  link : t.link =
    { s.link with replyQueue := t.link.replyQueue, transmitter := t.link.transmitter }
  replies : t.link.replyQueue.length ≤ s.link.replyQueue.length
  session : t.session.state = s.session.state
  startUp : t.startUp = s.startUp

theorem MayStart.refl (s : State) : MayStart s s := ⟨rfl, Nat.le_refl _, rfl, rfl⟩

theorem mayStart_sendReply (s : State) (carry : Int) : MayStart s (sendReply s carry) := by
  unfold sendReply
  split
  · exact .refl s
  · next h => exact ⟨rfl, by simp [h, transmit], rfl, rfl⟩

theorem mayStart_sendReport (s : State) (carry : Int) : MayStart s (sendReport s carry) := by
  unfold sendReport
  split
  · exact .refl s
  · exact ⟨rfl, Nat.le_refl _, rfl, rfl⟩

theorem mayStart_arbitrateCarry (s : State) (carry : Int) :
    MayStart s (arbitrateCarry s carry) := by
  unfold arbitrateCarry
  split
  · exact .refl s
  · split
    · exact mayStart_sendReply s carry
    · exact mayStart_sendReport s carry

theorem mayStart_arbitrateEither (s : State) : MayStart s (arbitrateEither s) := by
  have hcount : ∀ {t}, MayStart { s with freeCount := s.freeCount + 1 } t → MayStart s t :=
    fun ⟨hlink, hreplies, hsession, hstartUp⟩ => ⟨hlink, hreplies, hsession, hstartUp⟩
  unfold arbitrateEither
  dsimp only
  split
  · split
    · exact hcount (mayStart_sendReport _ 0)
    · exact hcount (mayStart_arbitrateCarry _ 0)
  · exact mayStart_arbitrateCarry s 0

/-- While a frame is on TXD the arbiter does nothing (R152). -/
theorem arbitrateEither_of_busy {s : State} (h : s.link.transmitter ≠ .idle) :
    arbitrateEither s = s := by
  unfold arbitrateEither
  rw [if_neg fun hidle => h hidle.1]
  exact arbitrate_of_txdLaw fun hidle => absurd hidle h

/-- With a reply waiting and TXD idle a reply or the eligible report starts, for its whole time on
TXD (R152; which of them, log 8). -/
theorem arbitrateEither_of_idle {s : State} (h : s.link.transmitter = .idle)
    (hq : s.link.replyQueue ≠ []) :
    ∃ g, (arbitrateEither s).link.transmitter = .sending g g.wireTime ∧
      (g :: (arbitrateEither s).link.replyQueue = s.link.replyQueue ∨
        (arbitrateEither s).link.replyQueue = s.link.replyQueue) := by
  have hreply : ∀ u : State, u.link = s.link → ∃ g, (arbitrate u).link.transmitter =
      .sending g g.wireTime ∧ g :: (arbitrate u).link.replyQueue = s.link.replyQueue := by
    intro u hu
    obtain ⟨g, rest, hg⟩ := List.exists_cons_of_ne_nil hq
    refine ⟨g, ?_⟩
    simp [arbitrate, arbitrateCarry, sendReply, transmit, hu, h, hg]
  unfold arbitrateEither
  split
  · next hboth =>
    obtain ⟨_, hsome⟩ := hboth
    obtain ⟨x, hx⟩ := Option.isSome_iff_exists.mp hsome
    dsimp only
    split
    · exact ⟨x.frame, by simp [sendReport, transmit, hx]⟩
    · obtain ⟨g, hsent, hrest⟩ := hreply { s with freeCount := s.freeCount + 1 } rfl
      exact ⟨g, hsent, .inl hrest⟩
  · obtain ⟨g, hsent, hrest⟩ := hreply s rfl
    exact ⟨g, hsent, .inl hrest⟩

/-- Whatever the free value says, TXD is not idle afterwards while anything waits for it (R152). -/
theorem arbitrateEither_txdLaw (s : State) : TxdLaw (arbitrateEither s) := by
  unfold arbitrateEither
  split
  · next hboth =>
    obtain ⟨_, hsome⟩ := hboth
    obtain ⟨x, hx⟩ := Option.isSome_iff_exists.mp hsome
    dsimp only
    split
    · intro hidle
      simp [sendReport, transmit, hx] at hidle
    · exact arbitrateCarry_txdLaw _ 0
  · exact arbitrateCarry_txdLaw s 0

/-! ## The bounds of the link -/

/-- The laws of the link but for that of TXD (R145, R148, R149, R155). -/
structure LinkBounds (s : State) : Prop where
  requests : s.link.requestQueue.length ≤ 4
  replies : s.link.replyQueue.length ≤ 4
  cacheSize : s.link.cache.length ≤ 8
  tags : (s.link.cache.map CacheEntry.tag).Nodup
  closed : s.session.state = .closed → s.link.cache = []
  heard : s.link.listened ≤ Config.characterTime
  startUp : s.startUp = true → s.link.listened = 0

theorem linkLaw_iff {s : State} : LinkLaw s ↔ LinkBounds s ∧ TxdLaw s := by
  constructor
  · rintro ⟨hrequests, hreplies, hsize, htags, hclosed, ⟨hheard, hstart⟩, htxd⟩
    exact ⟨⟨hrequests, hreplies, hsize, htags, hclosed, hheard, hstart⟩, htxd⟩
  · rintro ⟨⟨hrequests, hreplies, hsize, htags, hclosed, hheard, hstart⟩, htxd⟩
    exact ⟨hrequests, hreplies, hsize, htags, hclosed, ⟨hheard, hstart⟩, htxd⟩

theorem LinkLaw.bounds {s : State} (hs : LinkLaw s) : LinkBounds s := (linkLaw_iff.mp hs).1

theorem LinkLaw.txd {s : State} (hs : LinkLaw s) : TxdLaw s := (linkLaw_iff.mp hs).2

/-- The cache, the time listened, the session state and start-up stay, and the queues keep their
bounds. -/
theorem LinkBounds.of_queues {s t : State} (hs : LinkBounds s)
    (hrequests : t.link.requestQueue.length ≤ 4) (hreplies : t.link.replyQueue.length ≤ 4)
    (hrest : (t.link.cache, t.link.listened, t.session.state, t.startUp) =
      (s.link.cache, s.link.listened, s.session.state, s.startUp)) : LinkBounds t := by
  simp only [Prod.mk.injEq] at hrest
  obtain ⟨hcache, hlistened, hstate, hstartUp⟩ := hrest
  refine ⟨hrequests, hreplies, hcache ▸ hs.cacheSize, hcache ▸ hs.tags, ?_,
    hlistened ▸ hs.heard, ?_⟩
  · rw [hstate, hcache]
    exact hs.closed
  · rw [hstartUp, hlistened]
    exact hs.startUp

/-- The bounds read nothing but the view. -/
theorem LinkBounds.of_view {s t : State} (hs : LinkBounds s) (hv : linkView t = linkView s) :
    LinkBounds t := by
  obtain ⟨hlink, hstate, hstartUp⟩ := linkView_eq_iff.mp hv
  exact hs.of_queues (hlink ▸ hs.requests) (hlink ▸ hs.replies) (by rw [hlink, hstate, hstartUp])

theorem LinkBounds.mayStart {s t : State} (hs : LinkBounds s) (h : MayStart s t) :
    LinkBounds t := by
  obtain ⟨hlink, hreplies, hstate, hstartUp⟩ := h
  refine hs.of_queues ?_ (hreplies.trans hs.replies) ?_
  all_goals rw [hlink]
  · exact hs.requests
  · rw [hstate, hstartUp]

/-- At the end of an event the arbiter restores the law of TXD (R152). -/
theorem LinkBounds.arbitrateCarry {s : State} (hs : LinkBounds s) (carry : Int) :
    LinkLaw (arbitrateCarry s carry) :=
  linkLaw_iff.mpr ⟨hs.mayStart (mayStart_arbitrateCarry s carry), arbitrateCarry_txdLaw s carry⟩

theorem LinkBounds.arbitrate {s : State} (hs : LinkBounds s) : LinkLaw (arbitrate s) :=
  hs.arbitrateCarry 0

/-- An event of another block that the arbiter ends. -/
theorem LinkLaw.arbitrate_of_view {s t : State} (hs : LinkLaw s) (hv : linkView t = linkView s) :
    LinkLaw (arbitrate t) := (hs.bounds.of_view hv).arbitrate

/-- An event of another block that moves no report. -/
theorem LinkLaw.of_session {s t : State} (hs : LinkLaw s) (hlink : t.link = s.link)
    (hsession : t.session = s.session) (hstartUp : t.startUp = s.startUp) : LinkLaw t := by
  refine linkLaw_iff.mpr ⟨hs.bounds.of_view (linkView_eq_iff.mpr ⟨hlink, ?_, hstartUp⟩), ?_⟩
  · rw [hsession]
  · unfold TxdLaw
    rw [hlink, hsession]
    exact hs.txd

/-! ## The end of a request -/

/-- The reply enters behind the entries that stay, which are fewer than 8 and of other tags
(R149). -/
theorem exists_cacheReply (r : Request) (f : Frame) (cache : List CacheEntry) :
    ∃ kept, cacheReply r f cache = kept ++ [{ tag := r.tag, crc := r.crc, reply := f }] ∧
      kept.Sublist cache ∧ (∀ x ∈ kept, x.tag ≠ r.tag) ∧
      (cache.length ≤ 8 → kept.length < 8) := by
  have htags : ∀ x ∈ cache.filter fun x => x.tag ≠ r.tag, x.tag ≠ r.tag := fun x hx =>
    of_decide_eq_true (List.mem_filter.mp hx).2
  unfold cacheReply
  dsimp only
  split
  · next hless => exact ⟨_, rfl, List.filter_sublist, htags, fun h => by omega⟩
  next hsame =>
  have hall : cache.filter (fun x => x.tag ≠ r.tag) = cache :=
    List.filter_sublist.eq_of_length_le (Nat.le_of_not_lt hsame)
  rw [hall] at htags
  split
  · next hfull =>
    rw [Config.replyCacheSize] at hfull
    exact ⟨_, rfl, List.tail_sublist cache, fun x hx => htags x (List.mem_of_mem_tail hx),
      fun h => by rw [List.length_tail]; omega⟩
  · next hroom => exact ⟨_, rfl, List.Sublist.refl _, htags, fun _ => Nat.lt_of_not_le hroom⟩

theorem getLast?_cacheReply (r : Request) (f : Frame) (cache : List CacheEntry) :
    (cacheReply r f cache).getLast? = some { tag := r.tag, crc := r.crc, reply := f } := by
  obtain ⟨kept, heq, -⟩ := exists_cacheReply r f cache
  rw [heq, List.getLast?_concat]

/-- The state in which a reply has entered the reply queue and, in an OPEN session, the cache, and
the arbiter has not yet chosen (R146, R148, R149). -/
def queueReply (r : Request) (f : Frame) (s : State) : State :=
  { s with
    link :=
      { s.link with
        replyQueue := s.link.replyQueue ++ [f]
        cache := if s.session.state = .opened then cacheReply r f s.link.cache
                 else s.link.cache } }

theorem concludeRequest_eq_arbitrateEither (r : Request) (f : Frame) (s : State) :
    concludeRequest r f s = arbitrateEither (queueReply r f s) := rfl

theorem LinkBounds.queueReply {s : State} (hs : LinkBounds s)
    (room : s.link.replyQueue.length < 4) (r : Request) (f : Frame) :
    LinkBounds (queueReply r f s) := by
  have hcache : (cacheReply r f s.link.cache).length ≤ 8 ∧
      ((cacheReply r f s.link.cache).map CacheEntry.tag).Nodup := by
    obtain ⟨kept, heq, hsub, htags, hless⟩ := exists_cacheReply r f s.link.cache
    rw [heq, List.length_append, List.map_append]
    refine ⟨hless hs.cacheSize, ?_⟩
    refine ((hsub.map CacheEntry.tag).nodup hs.tags).append (List.nodup_singleton _) ?_
    simpa using fun x hx => htags x hx
  unfold Machine.queueReply
  cases ho : s.session.state with
  | opened =>
    obtain ⟨hsize, hnodup⟩ := hcache
    exact ⟨hs.requests, by simpa using room, by simpa using hsize, by simpa using hnodup,
      fun hc => absurd (ho.symm.trans hc) (by decide), hs.heard, hs.startUp⟩
  | closed =>
    exact ⟨hs.requests, by simpa using room, by simpa using hs.cacheSize,
      by simpa using hs.tags, fun _ => by simpa using hs.closed ho, hs.heard, hs.startUp⟩

theorem LinkBounds.concludeRequest {s : State} (hs : LinkBounds s)
    (room : s.link.replyQueue.length < 4) (r : Request) (f : Frame) :
    LinkLaw (concludeRequest r f s) := by
  rw [concludeRequest_eq_arbitrateEither]
  exact linkLaw_iff.mpr ⟨(hs.queueReply room r f).mayStart (mayStart_arbitrateEither _),
    arbitrateEither_txdLaw _⟩


/-! ## What the execution of a request leaves of the link -/

/-- From `s` to `t` the queues, TXD and the time listened stay, and the cache stays with the session
state or is emptied. -/
structure LinkKept (s t : State) : Prop where
  requests : t.link.requestQueue = s.link.requestQueue
  replies : t.link.replyQueue = s.link.replyQueue
  transmitter : t.link.transmitter = s.link.transmitter
  listened : t.link.listened = s.link.listened
  startUp : t.startUp = s.startUp
  cache : t.link.cache = s.link.cache ∧ t.session.state = s.session.state ∨ t.link.cache = []

theorem LinkKept.of_view {s t : State} (h : linkView t = linkView s) : LinkKept s t := by
  obtain ⟨hlink, hstate, hstartUp⟩ := linkView_eq_iff.mp h
  exact ⟨by rw [hlink], by rw [hlink], by rw [hlink], by rw [hlink], hstartUp,
    .inl ⟨by rw [hlink], hstate⟩⟩

theorem LinkKept.refl (s : State) : LinkKept s s := .of_view rfl

theorem LinkBounds.kept {s t : State} (hs : LinkBounds s) (h : LinkKept s t) : LinkBounds t := by
  obtain ⟨hrequests, hreplies, -, hlistened, hstartUp, hcache⟩ := h
  have hbounds : t.link.cache.length ≤ 8 ∧ (t.link.cache.map CacheEntry.tag).Nodup ∧
      (t.session.state = .closed → t.link.cache = []) := by
    rcases hcache with ⟨hcache, hstate⟩ | hcache
    · rw [hcache, hstate]
      exact ⟨hs.cacheSize, hs.tags, hs.closed⟩
    · rw [hcache]
      exact ⟨Nat.zero_le 8, List.nodup_nil, fun _ => rfl⟩
  obtain ⟨hsize, htags, hclosed⟩ := hbounds
  exact ⟨hrequests ▸ hs.requests, hreplies ▸ hs.replies, hsize, htags, hclosed,
    hlistened ▸ hs.heard, fun h => hlistened.trans (hs.startUp (hstartUp ▸ h))⟩

/-- A session close empties the cache and leaves the rest of the link (R159). -/
theorem LinkKept.closeSession {s u : State} (h : linkView u = linkView s) (cause : CloseCause) :
    LinkKept s (closeSession u cause) := by
  obtain ⟨hlink, -, hstartUp⟩ := linkView_eq_iff.mp h
  obtain ⟨-, heq⟩ := closeSession_spec u _ cause rfl
  rw [heq]
  exact ⟨by rw [hlink], by rw [hlink], by rw [hlink], by rw [hlink], hstartUp, .inr rfl⟩

/-- The execution of a request with this answer keeps the link as `LinkKept` says. -/
def KeepsLink (answer : State → List Byte → Answer × State) : Prop :=
  ∀ s payload, LinkKept s (answer s payload).2

theorem keepsLink_of_view {answer : State → List Byte → Answer × State}
    (h : ∀ s payload, linkView (answer s payload).2 = linkView s) : KeepsLink answer :=
  fun s payload => .of_view (h s payload)

theorem linkView_inSession {s : State} {n : Nat} {k : Answer × State}
    (hk : linkView k.2 = linkView s) : linkView (inSession s n k).2 = linkView s := by
  unfold inSession
  split
  · rfl
  · exact hk

/-! ### Requests to the program store -/

theorem linkView_changeProgram {s : State} {id : Byte} {k : Fin 32 → Answer × State}
    (hk : ∀ q, linkView (k q).2 = linkView s) : linkView (changeProgram s id k).2 = linkView s := by
  unfold changeProgram
  split
  · rfl
  · split
    · rfl
    · exact hk _

theorem keepsLink_defineProgram : KeepsLink answerDefineProgram := by
  refine keepsLink_of_view fun s payload => ?_
  unfold answerDefineProgram
  split
  · refine linkView_changeProgram fun q => ?_
    unfold defineProgram
    split
    · rfl
    split
    · rfl
    split <;> rfl
  · rfl

theorem keepsLink_appendSteps : KeepsLink answerAppendSteps := by
  refine keepsLink_of_view fun s payload => ?_
  have happend : ∀ q n bytes, linkView (appendSteps s q n bytes).2 = linkView s :=
    fun q n bytes => by
      unfold appendSteps
      dsimp only
      split
      · rfl
      split
      · rfl
      split
      · rfl
      split
      · rfl
      split <;> rfl
  unfold answerAppendSteps
  split
  · split
    · exact linkView_changeProgram fun q => happend q _ _
    · rfl
  · rfl

theorem keepsLink_sealProgram : KeepsLink answerSealProgram := by
  refine keepsLink_of_view fun s payload => ?_
  unfold answerSealProgram
  split
  · refine linkView_changeProgram fun q => ?_
    unfold sealProgram
    dsimp only
    split
    · rfl
    split <;> rfl
  · rfl

theorem keepsLink_discardProgram : KeepsLink answerDiscardProgram := by
  refine keepsLink_of_view fun s payload => ?_
  unfold answerDiscardProgram
  split
  · refine linkView_changeProgram fun q => ?_
    unfold discardProgram
    split <;> rfl
  · rfl

theorem keepsLink_deleteProgram : KeepsLink answerDeleteProgram := by
  refine keepsLink_of_view fun s payload => ?_
  unfold answerDeleteProgram
  split
  · refine linkView_changeProgram fun q => ?_
    unfold deleteProgram
    split
    · rfl
    split <;> rfl
  · rfl

/-! ### Requests that read -/

theorem keepsLink_ident : KeepsLink answerIdent := by
  refine keepsLink_of_view fun s payload => ?_
  unfold answerIdent
  split <;> rfl

theorem keepsLink_programInfo : KeepsLink answerProgramInfo := by
  refine keepsLink_of_view fun s payload => ?_
  unfold answerProgramInfo
  split
  · refine linkView_inSession ?_
    split <;> rfl
  · rfl

theorem keepsLink_programRead : KeepsLink answerProgramRead := by
  refine keepsLink_of_view fun s payload => ?_
  unfold answerProgramRead
  split
  · refine linkView_inSession ?_
    split <;> rfl
  · rfl

theorem keepsLink_readTime : KeepsLink answerReadTime := by
  refine keepsLink_of_view fun s payload => ?_
  unfold answerReadTime
  split
  · exact linkView_inSession rfl
  · rfl

theorem keepsLink_routeList : KeepsLink answerRouteList := by
  refine keepsLink_of_view fun s payload => ?_
  unfold answerRouteList
  split
  · exact linkView_inSession rfl
  · rfl

/-! ### Requests to a channel -/

theorem keepsLink_channelRequest {n : Nat} {k : State → Fin 8 → Answer × State}
    (h : ∀ s c, linkView (k s c).2 = linkView s) : KeepsLink (channelRequest n k) := by
  refine keepsLink_of_view fun s payload => ?_
  unfold channelRequest
  split
  · refine linkView_inSession ?_
    split
    · rfl
    · exact h s _
  · rfl

section
variable (s : State) (c : Fin 8)

theorem linkView_enableChannel : linkView (enableChannel s c).2 = linkView s := by
  unfold enableChannel
  dsimp only
  split
  · rfl
  split
  · rfl
  split
  · rfl
  split <;> rfl

theorem linkView_stopChannel : linkView (stopChannel s c).2 = linkView s := by
  unfold stopChannel
  split <;> simp

theorem linkView_haltRequest : linkView (haltRequest s c).2 = linkView s := by
  unfold haltRequest
  split
  · rfl
  split
  · exact linkView_haltChannel s c
  · rfl

theorem linkView_bindProgram (b : Binding) : linkView (bindProgram s c b).2 = linkView s := by
  have hstage : linkView (stageBinding s c b) = linkView s := by
    unfold stageBinding
    dsimp only
    split
    · exact (linkView_applyPending _ c).trans (linkView_releaseUse _ _)
    · exact linkView_releaseUse _ _
  have hinstall : linkView (installBinding s c b) = linkView s := by
    rw [installBinding_eq]
    exact linkView_releaseUse _ _
  unfold bindProgram
  dsimp only
  split
  · rfl
  split
  · rfl
  split
  · rfl
  split
  · exact hinstall
  split
  · rfl
  · exact hstage

theorem linkView_bindNothing : linkView (bindNothing s c).2 = linkView s := by
  unfold bindNothing
  split
  · rfl
  · exact linkView_releaseUse _ _
  · exact linkView_discardPending s c

theorem linkView_fireChannel (tag : Half) (presence : Byte) (due : Word) :
    linkView (fireChannel s c tag presence due).2 = linkView s := by
  unfold fireChannel
  dsimp only
  split
  · rfl
  split
  · rfl
  split
  · rfl
  split
  · rfl
  split
  · rfl
  · exact linkView_createEntry _ _ _ _ _

theorem linkView_setOptions (member : Bool) (safe : Level) :
    linkView (setOptions s c member safe).2 = linkView s := by
  unfold setOptions
  split
  · rfl
  split <;> rfl

end

theorem keepsLink_bind : KeepsLink answerBind := by
  refine keepsLink_of_view fun s payload => ?_
  unfold answerBind
  split
  · refine linkView_inSession ?_
    split
    · rfl
    split
    · exact linkView_bindNothing s _
    split
    · rfl
    split
    · rfl
    · exact linkView_bindProgram s _ _
  · rfl

theorem keepsLink_fire : KeepsLink answerFire := by
  refine keepsLink_of_view fun s payload => ?_
  unfold answerFire
  split
  · refine linkView_inSession ?_
    split
    · rfl
    · exact linkView_fireChannel s _ _ _ _
  · rfl

theorem keepsLink_setChannelOptions : KeepsLink answerSetChannelOptions := by
  refine keepsLink_of_view fun s payload => ?_
  unfold answerSetChannelOptions
  split
  · refine linkView_inSession ?_
    split
    · rfl
    split
    · exact linkView_setOptions s _ _ _
    · rfl
  · rfl

/-! ### Requests to the cutoff, the session and the link itself -/

theorem keepsLink_cutoff : KeepsLink answerCutoff := by
  refine keepsLink_of_view fun s payload => ?_
  unfold answerCutoff
  split
  · exact linkView_trip s _
  · rfl

theorem keepsLink_cutoffRelease : KeepsLink answerCutoffRelease := by
  refine keepsLink_of_view fun s payload => ?_
  unfold answerCutoffRelease
  split
  · refine linkView_inSession ?_
    split
    · rfl
    split
    · rfl
    · exact linkView_submit _ _
  · rfl

/-- STATUS may clear the link's counters, which no law of the link reads (R172). -/
theorem keepsLink_status : KeepsLink answerStatus := by
  intro s payload
  unfold answerStatus
  split
  · split
    · exact .refl s
    · exact ⟨rfl, rfl, rfl, rfl, rfl, .inl ⟨rfl, rfl⟩⟩
    · exact .refl s
  · exact .refl s

/-- RESTART leaves a mark that no law of the link reads (R156). -/
theorem keepsLink_restart : KeepsLink answerRestart := by
  intro s payload
  unfold answerRestart
  split
  · exact ⟨rfl, rfl, rfl, rfl, rfl, .inl ⟨rfl, rfl⟩⟩
  · exact .refl s

/-- A new session begins with an empty cache (R160). -/
theorem keepsLink_openSession : KeepsLink answerOpenSession := by
  intro s payload
  have hopen : ∀ silence resend mask, LinkKept s (openSession s silence resend mask) :=
    fun silence resend mask => by
      have hclosed : LinkKept s
          (if s.session.state = .opened then closeSession s .reopen else s) := by
        split
        · exact .closeSession rfl _
        · exact .refl s
      obtain ⟨hrequests, hreplies, htransmitter, hlistened, hstartUp, -⟩ := hclosed
      exact ⟨hrequests, hreplies, htransmitter, hlistened, hstartUp, .inr rfl⟩
  unfold answerOpenSession
  split
  · dsimp only
    split
    · exact .refl s
    split
    · exact .refl s
    split
    · exact .refl s
    · exact hopen _ _ _
  · exact .refl s

theorem keepsLink_closeSession : KeepsLink answerCloseSession := by
  intro s payload
  unfold answerCloseSession inSession
  split
  · split
    · exact .refl s
    split
    · exact .refl s
    · dsimp only
      exact .closeSession (linkView_quiesce s) _
    · dsimp only
      exact .closeSession rfl _
  · exact .refl s

theorem keepsLink_ackReports : KeepsLink answerAckReports := by
  refine keepsLink_of_view fun s payload => ?_
  have hack : ∀ n, linkView (acknowledge s n) = linkView s := fun n =>
    (linkView_tryMoves _).trans (linkView_eq_iff.mpr ⟨rfl, lossCheck_state _, rfl⟩)
  unfold answerAckReports
  split
  · refine linkView_inSession ?_
    split
    · rfl
    · exact hack _
  · rfl

/-! ### Requests to the line unit and the capture unit -/

theorem keepsLink_timebaseConfig : KeepsLink answerTimebaseConfig := by
  refine keepsLink_of_view fun s payload => ?_
  unfold answerTimebaseConfig
  split
  · refine linkView_inSession ?_
    split
    · rfl
    dsimp only
    split
    · rfl
    · exact linkView_applyLineSettings _
  · rfl

theorem keepsLink_setLine : KeepsLink answerSetLine := by
  refine keepsLink_of_view fun s payload => ?_
  unfold answerSetLine
  split
  · exact linkView_inSession rfl
  · rfl

theorem keepsLink_captureConfig : KeepsLink answerCaptureConfig := by
  refine keepsLink_of_view fun s payload => ?_
  have hset : ∀ i mode logEdges filter,
      linkView (configureCapture s i mode logEdges filter) = linkView s :=
    fun i mode logEdges filter => by
      unfold configureCapture
      dsimp only
      split
      · exact linkView_acceptEdge _ _ _
      · rfl
  unfold answerCaptureConfig
  split
  · refine linkView_inSession ?_
    split
    · rfl
    split
    · exact hset _ _ _ _
    · rfl
  · rfl

theorem keepsLink_routeAdd : KeepsLink answerRouteAdd := by
  refine keepsLink_of_view fun s payload => ?_
  have hadd : ∀ w, linkView (addRoute s w).2 = linkView s := fun w => by
    unfold addRoute
    split
    · rfl
    split <;> rfl
  unfold answerRouteAdd
  split
  · refine linkView_inSession ?_
    split
    · exact hadd _
    · rfl
  · rfl

theorem keepsLink_routeRemove : KeepsLink answerRouteRemove := by
  refine keepsLink_of_view fun s payload => ?_
  unfold answerRouteRemove
  split
  · refine linkView_inSession ?_
    split
    · rfl
    split <;> rfl
  · rfl

theorem keepsLink_readCaptures : KeepsLink answerReadCaptures := by
  refine keepsLink_of_view fun s payload => ?_
  unfold answerReadCaptures
  split
  · refine linkView_inSession ?_
    split
    · rfl
    split <;> rfl
  · rfl

theorem keepsLink_captureStream : KeepsLink answerCaptureStream := by
  refine keepsLink_of_view fun s payload => ?_
  have hset : ∀ on, linkView (setStreaming s on) = linkView s := fun on => by
    unfold setStreaming
    dsimp only
    split
    · exact linkView_tryMoves _
    · rfl
  unfold answerCaptureStream
  split
  · refine linkView_inSession ?_
    split
    · rfl
    · exact hset _
  · rfl

/-! ### Every request row -/

/-- Every row that executes requests of one KIND has its answer, and it keeps the link (R146). -/
theorem exists_answer_of_kind {i : Instr} {k : Byte} (hk : kindOfCommand i = some k) :
    ∃ answer, Answers i answer ∧ KeepsLink answer := by
  cases i with
  | ident => exact ⟨_, ⟨_, rfl, fun _ => rfl⟩, keepsLink_ident⟩
  | status => exact ⟨_, ⟨_, rfl, fun _ => rfl⟩, keepsLink_status⟩
  | openSession => exact ⟨_, ⟨_, rfl, fun _ => rfl⟩, keepsLink_openSession⟩
  | closeSession => exact ⟨_, ⟨_, rfl, fun _ => rfl⟩, keepsLink_closeSession⟩
  | ackReports => exact ⟨_, ⟨_, rfl, fun _ => rfl⟩, keepsLink_ackReports⟩
  | restart => exact ⟨_, ⟨_, rfl, fun _ => rfl⟩, keepsLink_restart⟩
  | cutoff => exact ⟨_, ⟨_, rfl, fun _ => rfl⟩, keepsLink_cutoff⟩
  | cutoffRelease => exact ⟨_, ⟨_, rfl, fun _ => rfl⟩, keepsLink_cutoffRelease⟩
  | setChannelOptions => exact ⟨_, ⟨_, rfl, fun _ => rfl⟩, keepsLink_setChannelOptions⟩
  | defineProgram => exact ⟨_, ⟨_, rfl, fun _ => rfl⟩, keepsLink_defineProgram⟩
  | appendSteps => exact ⟨_, ⟨_, rfl, fun _ => rfl⟩, keepsLink_appendSteps⟩
  | sealProgram => exact ⟨_, ⟨_, rfl, fun _ => rfl⟩, keepsLink_sealProgram⟩
  | discardProgram => exact ⟨_, ⟨_, rfl, fun _ => rfl⟩, keepsLink_discardProgram⟩
  | deleteProgram => exact ⟨_, ⟨_, rfl, fun _ => rfl⟩, keepsLink_deleteProgram⟩
  | programInfo => exact ⟨_, ⟨_, rfl, fun _ => rfl⟩, keepsLink_programInfo⟩
  | programRead => exact ⟨_, ⟨_, rfl, fun _ => rfl⟩, keepsLink_programRead⟩
  | bind => exact ⟨_, ⟨_, rfl, fun _ => rfl⟩, keepsLink_bind⟩
  | enable =>
    exact ⟨_, ⟨_, rfl, fun _ => rfl⟩, keepsLink_channelRequest linkView_enableChannel⟩
  | stop =>
    exact ⟨_, ⟨_, rfl, fun _ => rfl⟩, keepsLink_channelRequest linkView_stopChannel⟩
  | halt =>
    exact ⟨_, ⟨_, rfl, fun _ => rfl⟩, keepsLink_channelRequest linkView_haltRequest⟩
  | fire => exact ⟨_, ⟨_, rfl, fun _ => rfl⟩, keepsLink_fire⟩
  | channelStatus =>
    exact ⟨_, ⟨_, rfl, fun _ => rfl⟩, keepsLink_channelRequest fun _ _ => rfl⟩
  | timebaseConfig => exact ⟨_, ⟨_, rfl, fun _ => rfl⟩, keepsLink_timebaseConfig⟩
  | setLine => exact ⟨_, ⟨_, rfl, fun _ => rfl⟩, keepsLink_setLine⟩
  | readTime => exact ⟨_, ⟨_, rfl, fun _ => rfl⟩, keepsLink_readTime⟩
  | captureConfig => exact ⟨_, ⟨_, rfl, fun _ => rfl⟩, keepsLink_captureConfig⟩
  | routeAdd => exact ⟨_, ⟨_, rfl, fun _ => rfl⟩, keepsLink_routeAdd⟩
  | routeRemove => exact ⟨_, ⟨_, rfl, fun _ => rfl⟩, keepsLink_routeRemove⟩
  | routeList => exact ⟨_, ⟨_, rfl, fun _ => rfl⟩, keepsLink_routeList⟩
  | readCaptures => exact ⟨_, ⟨_, rfl, fun _ => rfl⟩, keepsLink_readCaptures⟩
  | captureStream => exact ⟨_, ⟨_, rfl, fun _ => rfl⟩, keepsLink_captureStream⟩
  | _ => cases hk

/-- The head request taken is one that may be executed (R145, R146). -/
theorem serves_of_takeRequest {mine : Byte → Bool} {s s0 : State} {r : Request}
    (h : takeRequest mine s = some (r, s0)) : Serves s r ∧ s0 = popRequest s := by
  unfold takeRequest at h
  split at h
  · cases h
  · next x rest hq =>
    split at h
    · next hmay =>
      cases h
      exact ⟨⟨by rw [hq]; rfl, (Bool.and_eq_true_iff.mp hmay).1⟩, by rw [popRequest, hq]; rfl⟩
    · cases h

/-- A request is executed only while its reply finds room (R146). -/
theorem room_of_serves {s : State} {r : Request} (h : Serves s r) :
    (popRequest s).link.replyQueue.length < 4 := by
  obtain ⟨-, hmay⟩ := h
  simp only [canExecute, Bool.and_eq_true, decide_eq_true_eq] at hmay
  obtain ⟨⟨-, hroom⟩, -⟩ := hmay
  exact hroom

theorem LinkBounds.popRequest {s : State} (hs : LinkBounds s) : LinkBounds (popRequest s) :=
  hs.of_queues ((List.tail_sublist _).length_le.trans hs.requests) hs.replies rfl

theorem LinkLaw.serveRequest {s : State} {k : Byte} {answer : State → List Byte → Answer × State}
    (hs : LinkLaw s) (h : KeepsLink answer) : LinkLaw (serveRequest k answer s) := by
  unfold Machine.serveRequest
  split
  · exact hs
  · next r s0 htake =>
    obtain ⟨hserves, rfl⟩ := serves_of_takeRequest htake
    have hkept := h (popRequest s) r.payload
    refine (hs.bounds.popRequest.kept hkept).concludeRequest ?_ _ _
    rw [hkept.replies]
    exact room_of_serves hserves

theorem LinkLaw.reject {s s0 : State} {r : Request} (hs : LinkLaw s)
    (htake : takeRequest namesNoRequest s = some (r, s0)) :
    LinkLaw (concludeRequest r (rejectFrame r) s0) := by
  obtain ⟨hserves, rfl⟩ := serves_of_takeRequest htake
  exact hs.bounds.popRequest.concludeRequest (room_of_serves hserves) _ _


/-! ## What the link's own happenings do to its laws -/

/-- A good frame may restart the silence timer, which no law of the link reads (R144, R162). -/
theorem linkView_restartSilence (s : State) : linkView (restartSilence s) = linkView s := by
  unfold restartSilence
  split <;> rfl

theorem LinkBounds.enqueueRequest {s : State} (hs : LinkBounds s) (r : Request) :
    LinkBounds (enqueueRequest s r) := by
  unfold Machine.enqueueRequest
  split
  · next hroom =>
    exact hs.of_queues (List.length_append.trans_le hroom) hs.replies rfl
  · exact hs.of_queues hs.requests hs.replies rfl

theorem LinkBounds.repeatReply {s : State} (hs : LinkBounds s) (e : CacheEntry) :
    LinkBounds (repeatReply s e) := by
  unfold Machine.repeatReply
  split
  · exact hs
  split
  · next hroom =>
    exact hs.of_queues hs.requests (List.length_append.trans_le hroom) rfl
  · exact hs.of_queues hs.requests hs.replies rfl

theorem LinkBounds.acceptFrame {s : State} (hs : LinkBounds s) (r : Request) :
    LinkBounds (acceptFrame s r) := by
  have hsilence : LinkBounds (restartSilence s) := hs.of_view (linkView_restartSilence s)
  unfold Machine.acceptFrame
  dsimp only
  split
  · split
    · exact hsilence.repeatReply _
    · split
      · exact hsilence
      · exact hsilence.enqueueRequest r
  · exact hsilence.enqueueRequest r

/-- Neither the framer nor the counters are read by a law of the link. -/
theorem LinkBounds.of_framer {s : State} (hs : LinkBounds s) (f : Framer) :
    LinkBounds (setFramer s f) := hs.of_queues hs.requests hs.replies rfl

theorem LinkLaw.of_framer {s : State} (hs : LinkLaw s) (f : Framer) : LinkLaw (setFramer s f) :=
  linkLaw_iff.mpr ⟨hs.bounds.of_framer f, hs.txd⟩

theorem LinkBounds.judgeFrame {s : State} (hs : LinkBounds s) (len : Byte) (kept : List Byte)
    (crc : Half) : LinkBounds (judgeFrame s len kept crc) := by
  unfold Machine.judgeFrame
  split
  · exact hs.of_queues hs.requests hs.replies rfl
  split
  · exact hs.acceptFrame _
  · exact hs

theorem LinkLaw.discardPartial {s : State} (hs : LinkLaw s) : LinkLaw (discardPartial s) :=
  hs.of_framer .hunt

theorem LinkLaw.receive {s : State} (hs : LinkLaw s) (b : Byte) : LinkLaw (receive b s) := by
  unfold Machine.receive
  split
  · split
    · exact hs.of_framer _
    · exact hs
  · split
    · exact hs.discardPartial
    · exact hs.of_framer _
  · exact hs.of_framer _
  · exact hs.of_framer _
  · exact ((hs.bounds.of_framer .hunt).judgeFrame _ _ _).arbitrate

/-- An empty link with no session open breaks no law (R155, R157). -/
theorem linkLaw_of_empty {s : State} (hrequests : s.link.requestQueue = [])
    (hreplies : s.link.replyQueue = []) (hcache : s.link.cache = [])
    (hclosed : s.session.state = .closed) (hheard : s.link.listened ≤ Config.characterTime)
    (hstart : s.startUp = true → s.link.listened = 0) : LinkLaw s := by
  refine linkLaw_iff.mpr ⟨⟨?_, ?_, ?_, ?_, fun _ => hcache, hheard, hstart⟩,
    fun _ => ⟨hreplies, if_neg fun h => ?_⟩⟩
  · simp [hrequests]
  · simp [hreplies]
  · simp [hcache]
  · simp [hcache]
  · exact absurd (hclosed.symm.trans h.1) (by decide)

/-- After the soft reset the link is empty and the session CLOSED (R157). -/
theorem LinkBounds.softReset {s : State} (hs : LinkBounds s) : LinkLaw (softReset s) := by
  obtain ⟨heq, -⟩ := softReset_spec s _ rfl
  generalize Machine.softReset s = t at heq ⊢
  have hlink : t.link = s.link.restart := by rw [heq]
  have hstartUp : t.startUp = s.startUp := by rw [heq]
  have hclosed : t.session.state = .closed := by
    rw [heq]
    dsimp only
    split
    · rfl
    · next hnot =>
      cases hstate : s.session.state with
      | closed => rfl
      | opened => exact absurd hstate hnot
  refine linkLaw_of_empty ?_ ?_ ?_ hclosed ?_ (hstartUp ▸ ?_)
  all_goals rw [hlink]
  · rfl
  · rfl
  · rfl
  · exact hs.heard
  · exact hs.startUp

/-- The state with nothing on TXD. -/
def txdIdle (s : State) : State := { s with link := { s.link with transmitter := .idle } }

/-- The end of the RESTART reply is followed by the soft reset (R156). -/
theorem endTransmission_of_restart {s : State} (left : Int)
    (h : s.link.restartPending = true ∧ s.link.replyQueue = []) :
    endTransmission s left = softReset (txdIdle s) := if_pos h

/-- The end of any other frame is followed by the arbiter's choice (R152). -/
theorem endTransmission_of_next {s : State} (left : Int)
    (h : ¬ (s.link.restartPending = true ∧ s.link.replyQueue = [])) :
    endTransmission s left = arbitrateCarry (txdIdle s) (carryOf s.link.rate left) := if_neg h

theorem LinkBounds.txdIdle {s : State} (hs : LinkBounds s) : LinkBounds (txdIdle s) :=
  hs.of_queues hs.requests hs.replies rfl

theorem LinkLaw.endTransmission {s : State} (hs : LinkLaw s) (left : Int) :
    LinkLaw (endTransmission s left) := by
  by_cases h : s.link.restartPending = true ∧ s.link.replyQueue = []
  · rw [endTransmission_of_restart left h]
    exact hs.bounds.txdIdle.softReset
  · rw [endTransmission_of_next left h]
    exact hs.bounds.txdIdle.arbitrateCarry _

/-- From the end of start-up the receiver listens, for no time yet (R155, log 32). -/
theorem LinkBounds.endStartUp {s : State} (hs : LinkBounds s) : LinkBounds (endStartUp s) := by
  have htaken : ∀ line cutoff, LinkBounds
      { s with startUp := false, link := { s.link with listened := 0 }, line := line,
               cutoff := cutoff } := fun _ _ =>
    ⟨hs.requests, hs.replies, hs.cacheSize, hs.tags, hs.closed, Nat.zero_le _, fun _ => rfl⟩
  unfold Machine.endStartUp
  dsimp only
  split
  · refine LinkBounds.of_view ?_ (linkView_trip _ .pin)
    exact htaken _ _
  · exact htaken _ _

theorem tickTransmitter_idle_iff (rate : LinkRate) (t : Transmitter) :
    tickTransmitter rate t = .idle ↔ t = .idle := by
  cases t <;> simp [tickTransmitter]

/-- A tick takes from the frame on TXD and, after start-up, adds to the time listened, up to one
character (R140, R155). -/
theorem LinkLaw.tick {s : State} (hs : LinkLaw s) (pins : Pins) : LinkLaw (tick pins s) := by
  obtain ⟨hrequests, hreplies, hsize, htags, hclosed, hheard, hstart⟩ := hs.bounds
  have htxd : tickTransmitter s.link.rate s.link.transmitter = .idle →
      s.link.replyQueue = [] ∧ s.session.eligible = none := fun h =>
    hs.txd ((tickTransmitter_idle_iff _ _).mp h)
  cases hup : s.startUp with
  | true =>
    rw [tick_of_startUp hup]
    exact linkLaw_iff.mpr ⟨⟨hrequests, hreplies, hsize, htags, hclosed, hheard, hstart⟩, htxd⟩
  | false =>
    rw [tick_of_running hup]
    exact linkLaw_iff.mpr ⟨⟨hrequests, hreplies, hsize, htags, hclosed, Nat.min_le_right _ _,
      fun h => absurd (hup.symm.trans h) (by decide)⟩, htxd⟩

/-! ## Every command -/

/-- The outcome is a next state, and the laws of the link hold there. -/
def LinkNext (o : Host.Outcome State Fault Refusal) : Prop := ∃ t, o = .next t ∧ LinkLaw t

/-- Where a happening is not there, nothing changes (log 2). -/
theorem LinkLaw.happening {s t : State} {p : Prop} [Decidable p] (hs : LinkLaw s)
    (h : p → LinkLaw t) : LinkNext (.next (if p then t else s)) :=
  ⟨_, rfl, by split; exacts [h ‹p›, hs]⟩

/-- A happening of another block, at whose end the arbiter chooses (R152). -/
theorem LinkLaw.event {s t : State} {p : Prop} [Decidable p] (hs : LinkLaw s)
    (hv : linkView t = linkView s) : LinkNext (.next (if p then arbitrate t else s)) :=
  hs.happening fun _ => hs.arbitrate_of_view hv

/-- Every command has a next state, and it keeps the laws of the link. -/
theorem LinkLaw.exec {s : State} (hs : LinkLaw s) (i : Instr) : LinkNext (exec i s) := by
  cases hkind : kindOfCommand i with
  | some k =>
    obtain ⟨answer, ⟨k, -, hexec⟩, hkeeps⟩ := exists_answer_of_kind hkind
    exact ⟨_, hexec s, hs.serveRequest hkeeps⟩
  | none =>
  cases i with
  | reject =>
    refine ⟨_, rfl, ?_⟩
    split
    · exact hs
    · next htake => exact hs.reject htake
  | frameComplete b => exact hs.happening fun _ => hs.receive b
  | invalidLenByte b => exact hs.happening fun _ => hs.receive b
  | receivedByte b => exact hs.happening fun _ => hs.receive b
  | interByteGapTimeout => exact hs.happening fun _ => hs.discardPartial
  | transmissionEnd =>
    refine ⟨_, rfl, ?_⟩
    split
    · exact hs
    split
    · exact hs.endTransmission _
    · exact hs
  | hardReset cause baud1 baud0 =>
    refine hs.happening fun _ => linkLaw_of_empty ?_ ?_ ?_ ?_ (Nat.zero_le _) fun _ => ?_
    all_goals rfl
  | startUpEnd => exact hs.happening fun _ => hs.bounds.endStartUp.arbitrate
  | lineRise => exact hs.event (linkView_riseLine s)
  | lineFall => exact hs.happening fun _ => hs.of_session rfl rfl rfl
  | lineStallDetected => exact hs.event (linkView_stallLine s)
  | captureEdge i =>
    refine ⟨_, rfl, ?_⟩
    split
    · exact hs.arbitrate_of_view (linkView_acceptEdge s i _)
    · exact hs
  | cutoffNAssertion => exact hs.event (linkView_trip _ _)
  | cutoffNDeassertion => exact hs.happening fun _ => hs.of_session rfl rfl rfl
  | silenceExpiry =>
    exact hs.happening fun _ =>
      (hs.bounds.kept (.closeSession (linkView_trip s .silence) .silence)).arbitrate
  | resendExpiry => exact hs.event rfl
  | headEntryDue c => exact hs.event (linkView_handleDue s c)
  | stepEnd c =>
    refine ⟨_, rfl, ?_⟩
    split
    · split
      · exact hs.arbitrate_of_view (linkView_endStep ..)
      · exact hs
    · exact hs
  | holdUntilTimeout c =>
    refine ⟨_, rfl, ?_⟩
    split
    · split
      · exact hs.arbitrate_of_view ((linkView_endStep ..).trans (linkView_submit ..))
      · exact hs
    · exact hs
  | holdUntilEdge c =>
    refine ⟨_, rfl, ?_⟩
    split
    · exact hs
    · exact hs.arbitrate_of_view (linkView_takeOffer ..)
  | routeTrigger c =>
    refine ⟨_, rfl, ?_⟩
    split
    · exact hs
    · exact hs.arbitrate_of_view (linkView_takeTrigger ..)
  | stallNotice c =>
    refine ⟨_, rfl, ?_⟩
    split
    · exact hs
    · exact hs.arbitrate_of_view (linkView_actOnStall ..)
  | linePresetTaken c =>
    refine ⟨_, rfl, ?_⟩
    split
    · exact hs
    · exact hs.of_session rfl rfl rfl
  | entryOverdueDiscard c => exact hs.event (linkView_dropHeads ..)
  | timeBaseTick pins => exact ⟨_, rfl, hs.tick pins⟩
  | _ => cases hkind

/-- Settles O59: the front command is run on a state with the same link and session, and every
command keeps the laws of the link. -/
theorem stepKeepsLinkLaws : Obligations.StepKeepsLinkLaws := by
  intro s t hs hstep
  unfold step at hstep
  split at hstep
  · cases hstep
    exact hs
  · next i rest _ =>
    have hrest : LinkLaw { s with pending := rest } := hs.of_session rfl rfl rfl
    obtain ⟨u, hu, hlaw⟩ := hrest.exec i
    rw [hu] at hstep
    cases hstep
    exact hlaw

/-! ## One reply a request -/

/-- What is told of the reply `f` of a request executed from `s` (R146, R148, R149, R152). -/
theorem concludeRequest_reply {s u : State} {r : Request} (f : Frame)
    (hkept : LinkKept (popRequest s) u) :
    (concludeRequest r f u).link.requestQueue = s.link.requestQueue.tail ∧
      (s.link.transmitter ≠ .idle →
        (concludeRequest r f u).link.transmitter = s.link.transmitter ∧
          (concludeRequest r f u).link.replyQueue = s.link.replyQueue ++ [f]) ∧
      (s.link.transmitter = .idle →
        ∃ g, (concludeRequest r f u).link.transmitter = .sending g g.wireTime ∧
          (g :: (concludeRequest r f u).link.replyQueue = s.link.replyQueue ++ [f] ∨
            (concludeRequest r f u).link.replyQueue = s.link.replyQueue ++ [f])) ∧
      ((concludeRequest r f u).session.state = .opened →
        (concludeRequest r f u).link.cache.getLast? =
          some { tag := r.tag, crc := r.crc, reply := f }) := by
  obtain ⟨hrequests, hreplies, htransmitter, -, -, -⟩ := hkept
  have hqueue : (queueReply r f u).link.replyQueue = s.link.replyQueue ++ [f] :=
    congrArg (· ++ [f]) hreplies
  have htxd : (queueReply r f u).link.transmitter = s.link.transmitter := htransmitter
  rw [concludeRequest_eq_arbitrateEither]
  obtain ⟨hlink, -, hstate, -⟩ := mayStart_arbitrateEither (queueReply r f u)
  refine ⟨?_, fun hbusy => ?_, fun hidle => ?_, fun hopen => ?_⟩
  · rw [hlink]
    exact hrequests
  · rw [arbitrateEither_of_busy (htxd ▸ hbusy)]
    exact ⟨htxd, hqueue⟩
  · rw [← hqueue]
    exact arbitrateEither_of_idle (htxd.trans hidle) (by simp [hqueue])
  · have hu : u.session.state = .opened := hstate.symm.trans hopen
    rw [hlink]
    simp [queueReply, hu, getLast?_cacheReply]

/-- Settles O5: the row's answer keeps the queues and TXD, and the end of the request adds the one
reply. -/
theorem everyRequestIsAnsweredOnce : Obligations.EveryRequestIsAnsweredOnce := by
  intro i s r hs hi
  by_cases hreject : i = .reject
  · subst hreject
    have hk : r.kind ∉ requestKinds := by
      rcases hi with hk | ⟨-, hk⟩
      · cases hk
      · exact hk
    obtain ⟨hexec, -⟩ := kindThenLengthThenSession s r hs
    exact ⟨_, _, .unknownKind, [], hexec hk, rfl, rfl, rfl, concludeRequest_reply _ (.refl _)⟩
  · have hk : kindOfCommand i = some r.kind := by
      rcases hi with hk | ⟨hr, -⟩
      · exact hk
      · exact absurd hr hreject
    obtain ⟨answer, hanswers, hkeeps⟩ := exists_answer_of_kind hk
    refine ⟨_, _, _, _, hanswers.executed hs hk rfl, ?_, rfl, rfl,
      concludeRequest_reply _ (hkeeps _ _)⟩
    rw [if_neg hreject]
    rfl

/-! ## IDENT -/

/-- Settles O7: IDENT looks at the payload's length and at nothing else. -/
theorem identTellsCapacities : Obligations.IdentTellsCapacities := by
  intro s r hs hk
  have hident : Answers .ident answerIdent := ⟨_, rfl, fun _ => rfl⟩
  refine ⟨fun hp => hident.executed hs (congrArg some hk.symm) (by rw [hp]; rfl), fun hp =>
    hident.executed hs (congrArg some hk.symm) (judged_ident _ _ fun h => hp ?_)⟩
  exact List.length_eq_zero_iff.mp h

end Sys2Proof.Machine

namespace Sys2Proof.Machine

/-! ## The receive framer, state by state -/

theorem hears_iff (s : State) :
    hears s = true ↔ s.startUp = false ∧ 10000000 ≤ s.link.listened := by
  rw [hears, Bool.and_eq_true, Bool.not_eq_true', decide_eq_true_eq]
  rfl

theorem invalidLen_iff (b : Byte) : invalidLen b = true ↔ b.toNat < 2 ∨ 242 < b.toNat := by
  simp [invalidLen]

/-- Before it has listened for a whole character the receiver takes no byte (R155). -/
theorem exec_byte_of_deaf {s : State} (h : hears s = false) {b : Byte} {i : Instr}
    (hi : i = .receivedByte b ∨ i = .frameComplete b ∨ i = .invalidLenByte b) :
    exec i s = .next s := by
  rcases hi with rfl | rfl | rfl
  · show execReceivedByte b s = _
    simp [execReceivedByte, h]
  · show execFrameComplete b s = _
    simp [execFrameComplete, h]
  · show execInvalidLenByte b s = _
    simp [execInvalidLenByte, h]

section
variable {s : State} {b len : Byte} {kept : List Byte} {p : Word}

theorem exec_receivedByte_of_hears (h : hears s = true) (b : Byte) :
    exec (.receivedByte b) s = .next (receive b s) := by
  show execReceivedByte b s = _
  simp [execReceivedByte, h]

/-- In HUNT only SYNC is kept (R142). -/
theorem receive_of_hunt (hf : s.link.framer = .hunt) (b : Byte) :
    receive b s = if b = 0xA5 then setFramer s (.length s.timeBase) else s := by
  rw [receive, hf]

theorem receive_of_length (hf : s.link.framer = .length p) (hb : invalidLen b = false) :
    receive b s = setFramer s (.body b [] s.timeBase) := by
  simp [receive, hf, hb]

theorem receive_of_invalidLength (hf : s.link.framer = .length p) (hb : invalidLen b = true) :
    receive b s = discardPartial s := by
  simp [receive, hf, hb]

theorem receive_of_body (hf : s.link.framer = .body len kept p) (b : Byte) :
    receive b s =
      setFramer s (if kept.length + 1 < len.toNat then .body len (kept ++ [b]) s.timeBase
        else .check len (kept ++ [b]) none s.timeBase) := by
  rw [receive, hf]
  simp [keepBody]

theorem receive_of_check (hf : s.link.framer = .check len kept none p) (b : Byte) :
    receive b s = setFramer s (.check len kept (some b) s.timeBase) := by
  rw [receive, hf]

theorem receive_of_lastByte {low : Byte} (hf : s.link.framer = .check len kept (some low) p)
    (b : Byte) :
    receive b s = arbitrate (judgeFrame (setFramer s .hunt) len kept (read16 low b)) := by
  rw [receive, hf]

theorem exec_frameComplete_of_lastByte {low : Byte} (h : hears s = true)
    (hf : s.link.framer = .check len kept (some low) p) (b : Byte) :
    exec (.frameComplete b) s = .next (receive b s) := by
  show execFrameComplete b s = _
  simp [execFrameComplete, h, hf, awaitsLastByte]

theorem exec_invalidLenByte_of_length (h : hears s = true) (hf : s.link.framer = .length p)
    (hb : invalidLen b = true) : exec (.invalidLenByte b) s = .next (receive b s) := by
  show execInvalidLenByte b s = _
  simp [execInvalidLenByte, h, hf, awaitsLength, hb]

/-- A partial frame that is discarded is one more frame error, counted up to 65535 (R142, R143,
R153). -/
theorem discardPartial_eq (s : State) :
    discardPartial s =
      { s with link := { s.link with
          framer := .hunt
          frameErrors := if s.link.frameErrors = 65535 then 65535
                         else s.link.frameErrors + 1 } } := by
  rw [← satSucc_eq_ite]
  rfl

/-- More than 2,000 ticks after the last byte kept the partial frame is discarded (R143,
log 15). -/
theorem exec_gap_of_lastKept (hf : lastKept s.link.framer = some p) :
    exec .interByteGapTimeout s =
      .next (if 2000 < (s.timeBase - p).toNat then discardPartial s else s) := by
  show execInterByteGapTimeout s = _
  simp only [execInterByteGapTimeout, gapReached, hf, decide_eq_true_eq]
  rfl

/-- Whatever becomes of a complete frame, the framer is back in HUNT (R142). -/
theorem framer_judgeFrame (hf : s.link.framer = .hunt) (len : Byte) (kept : List Byte)
    (crc : Half) : (judgeFrame s len kept crc).link.framer = .hunt := by
  have hsilence : (restartSilence s).link.framer = .hunt := by
    unfold restartSilence
    split <;> exact hf
  have henqueue : ∀ r, (enqueueRequest (restartSilence s) r).link.framer = .hunt := fun r => by
    unfold enqueueRequest
    split <;> exact hsilence
  have hrepeat : ∀ e, (repeatReply (restartSilence s) e).link.framer = .hunt := fun e => by
    unfold repeatReply
    split
    · exact hsilence
    · split <;> exact hsilence
  unfold judgeFrame
  split
  · exact hf
  split
  · unfold acceptFrame
    dsimp only
    split
    · split
      · exact hrepeat _
      · split
        · exact hsilence
        · exact henqueue _
    · exact henqueue _
  · exact hf

end

/-- Settles O36: deaf or not, then one row of the framer's table after another, then the gap. -/
theorem framerFollowsItsTable : Obligations.FramerFollowsItsTable := by
  intro s b
  refine ⟨fun hdeaf i hi => exec_byte_of_deaf ?_ hi, fun hup hheard => ?_, fun p hf => ?_⟩
  · refine Bool.eq_false_iff.mpr fun h => ?_
    obtain ⟨hup, hheard⟩ := (hears_iff s).mp h
    rcases hdeaf with h | h
    · exact absurd (hup.symm.trans h) (by decide)
    · omega
  · have hears : hears s = true := (hears_iff s).mpr ⟨hup, hheard⟩
    rw [exec_receivedByte_of_hears hears]
    refine ⟨fun hf => ?_, fun p hf => ⟨fun h2 h242 => ?_, fun hout i hi => ?_⟩,
      fun len kept p hf => ?_, fun len kept p hf => ?_, fun len kept low p hf => ⟨?_, ?_⟩⟩
    · rw [receive_of_hunt hf]
      rfl
    · rw [receive_of_length hf]
      · rfl
      · exact Bool.eq_false_iff.mpr fun h => by have := (invalidLen_iff b).mp h; omega
    · have hb : invalidLen b = true := (invalidLen_iff b).mpr hout
      have hexec : exec i s = .next (receive b s) := by
        rcases hi with rfl | rfl
        · exact exec_receivedByte_of_hears hears b
        · exact exec_invalidLenByte_of_length hears hf hb
      rw [hexec, receive_of_invalidLength hf hb, discardPartial_eq]
    · rw [receive_of_body hf]
      rfl
    · rw [receive_of_check hf]
      rfl
    · exact (exec_frameComplete_of_lastByte hears hf b).symm
    · refine ⟨_, rfl, ?_⟩
      rw [receive_of_lastByte hf]
      obtain ⟨hlink, -⟩ := mayStart_arbitrateCarry
        (judgeFrame (setFramer s .hunt) len kept (read16 low b)) 0
      rw [arbitrate, hlink]
      exact framer_judgeFrame rfl _ _ _
  · have hlast : lastKept s.link.framer = some p := by
      rcases hf with hf | ⟨len, kept, hf⟩ | ⟨len, kept, low, hf⟩ <;> rw [hf] <;> rfl
    rw [exec_gap_of_lastKept hlast, discardPartial_eq]

/-! ## A complete frame -/

section
variable {s : State} {r : Request}

theorem cacheMatch_eq_none (h : ∀ e ∈ s.link.cache, ¬ (e.tag = r.tag ∧ e.crc = r.crc)) :
    cacheMatch s r = none :=
  List.find?_eq_none.mpr fun e he => by simpa using h e he

/-- The first entry of the frame's TAG and CRC is the match (R150). -/
theorem cacheMatch_of_split {before after : List CacheEntry} {e : CacheEntry}
    (hc : s.link.cache = before ++ e :: after) (htag : e.tag = r.tag) (hcrc : e.crc = r.crc)
    (hb : ∀ y ∈ before, ¬ (y.tag = r.tag ∧ y.crc = r.crc)) : cacheMatch s r = some e := by
  rw [cacheMatch, hc, List.find?_append, List.find?_eq_none.mpr fun y hy => by simpa using hb y hy]
  simp [htag, hcrc]

theorem waitingMatch_iff :
    waitingMatch s r = true ↔ ∃ q ∈ s.link.requestQueue, q.tag = r.tag ∧ q.crc = r.crc := by
  simp [waitingMatch]

@[simp] theorem restartSilence_link (s : State) : (restartSilence s).link = s.link := by
  unfold restartSilence
  split <;> rfl

@[simp] theorem restartSilence_state (s : State) :
    (restartSilence s).session.state = s.session.state := by
  unfold restartSilence
  split <;> rfl

/-- A frame that matches nothing, or that comes with no session open, is a new request (R144). -/
theorem acceptFrame_of_new (h : s.session.state = .closed ∨
      ((∀ e ∈ s.link.cache, ¬ (e.tag = r.tag ∧ e.crc = r.crc)) ∧
        ∀ q ∈ s.link.requestQueue, ¬ (q.tag = r.tag ∧ q.crc = r.crc))) :
    acceptFrame s r = enqueueRequest (restartSilence s) r := by
  unfold acceptFrame
  dsimp only
  rcases h with h | ⟨hcache, hwaiting⟩
  · rw [if_neg (by simp [h])]
  · have hwait : ¬ waitingMatch (restartSilence s) r = true := fun h => by
      obtain ⟨q, hq, hsame⟩ := waitingMatch_iff.mp h
      exact hwaiting q (restartSilence_link s ▸ hq) hsame
    rw [cacheMatch_eq_none (by simpa using hcache), if_neg hwait, ite_self]

/-- A frame that matches a waiting request is dropped (R151). -/
theorem acceptFrame_of_waiting (ho : s.session.state = .opened)
    (hcache : ∀ e ∈ s.link.cache, ¬ (e.tag = r.tag ∧ e.crc = r.crc))
    (hwaiting : ∃ q ∈ s.link.requestQueue, q.tag = r.tag ∧ q.crc = r.crc) :
    acceptFrame s r = restartSilence s := by
  have hwait : waitingMatch (restartSilence s) r = true :=
    waitingMatch_iff.mpr (by rwa [restartSilence_link])
  unfold acceptFrame
  dsimp only
  rw [if_pos (by simp [ho]), cacheMatch_eq_none (by simpa using hcache)]
  exact if_pos hwait

/-- A frame that matches a cache entry is a repeat (R150). -/
theorem acceptFrame_of_cached {before after : List CacheEntry} {e : CacheEntry}
    (ho : s.session.state = .opened) (hc : s.link.cache = before ++ e :: after)
    (htag : e.tag = r.tag) (hcrc : e.crc = r.crc)
    (hb : ∀ y ∈ before, ¬ (y.tag = r.tag ∧ y.crc = r.crc)) :
    acceptFrame s r = repeatReply (restartSilence s) e := by
  unfold acceptFrame
  dsimp only
  rw [if_pos (by simp [ho]), cacheMatch_of_split (by simpa using hc) htag hcrc hb]

/-- A good frame is accepted as the request it spells (R144). -/
theorem judgeFrame_of_good {len kind tag : Byte} {payload : List Byte} {crc : Half}
    (h : crc16 (len :: kind :: tag :: payload) = crc) :
    judgeFrame s len (kind :: tag :: payload) crc =
      acceptFrame s { kind := kind, tag := tag, payload := payload, crc := crc } :=
  if_neg fun hne => hne h

/-- What TXD may send is told by the transmitter, the reply queue and the eligible report (R152). -/
theorem TxdLaw.congr {t : State} (hs : TxdLaw s)
    (htransmitter : t.link.transmitter = s.link.transmitter)
    (hreplies : t.link.replyQueue = s.link.replyQueue)
    (heligible : t.session.eligible = s.session.eligible) : TxdLaw t := by
  unfold TxdLaw
  rw [htransmitter, hreplies, heligible]
  exact hs

/-- One more overrun is counted up to 65535 (R153). -/
theorem countOverrun_eq (s : State) :
    countOverrun s =
      { s with link := { s.link with
          overruns := if s.link.overruns = 65535 then 65535 else s.link.overruns + 1 } } := by
  rw [← satSucc_eq_ite]
  rfl

theorem arbitrate_countOverrun (hs : TxdLaw s) : arbitrate (countOverrun s) = countOverrun s :=
  arbitrate_of_txdLaw (hs.congr rfl rfl rfl)

/-- A request that enters its queue gives TXD nothing to send (R145, R152). -/
theorem arbitrate_enqueueRequest (hs : TxdLaw s) (r : Request) :
    arbitrate (enqueueRequest s r) =
      if s.link.requestQueue.length < 4 then
        { s with link := { s.link with requestQueue := s.link.requestQueue ++ [r] } }
      else countOverrun s := by
  unfold enqueueRequest
  split
  · next hroom =>
    refine (arbitrate_of_txdLaw ?_).trans (if_pos hroom).symm
    exact hs.congr rfl rfl rfl
  · next hfull => exact (arbitrate_countOverrun hs).trans (if_neg hfull).symm

/-- A repeated reply is offered to TXD; a repeat that is dropped is not (R150, R152). -/
theorem arbitrate_repeatReply (hs : TxdLaw s) (e : CacheEntry) :
    arbitrate (repeatReply s e) =
      if s.link.restartPending then s
      else if s.link.replyQueue.length < 4 then
        arbitrate { s with link := { s.link with
          replyQueue := s.link.replyQueue ++ [e.reply.repeated] } }
      else countOverrun s := by
  unfold repeatReply
  split
  · exact arbitrate_of_txdLaw hs
  split
  · next hroom => exact (if_pos hroom).symm
  · next hfull => exact (arbitrate_countOverrun hs).trans (if_neg hfull).symm

end

/-- Settles O37: the CRC, then the match of an OPEN session, then the room in the queues. -/
theorem completeFrameIsJudged : Obligations.CompleteFrameIsJudged := by
  intro s len kind tag low high payload p crc hup hheard htxd hf hcrc r hr
  have hexec : exec (.frameComplete high) s =
      .next (arbitrate (judgeFrame (setFramer s .hunt) len (kind :: tag :: payload) crc)) := by
    rw [exec_frameComplete_of_lastByte ((hears_iff s).mpr ⟨hup, hheard⟩) hf, receive_of_lastByte hf,
      hcrc]
    rfl
  refine ⟨fun hbad => ?_, fun hgood s1 hs1 => ?_⟩
  · rw [hexec, judgeFrame, if_pos hbad, ← satSucc_eq_ite, arbitrate_of_txdLaw]
    · rfl
    · exact htxd.congr rfl rfl rfl
  have hsilence : restartSilence (setFramer s .hunt) = s1 := by
    have hsame : ∀ timer, s.session.silenceTimer = timer →
        { s.session with silenceTimer := timer } = s.session := fun _ h => by rw [← h]
    rw [hs1]
    unfold restartSilence
    rw [setFramer_session]
    cases htimer : s.session.silenceTimer with
    | none => simp only [hsame _ htimer]; rfl
    | some point =>
      cases s.session.silenceTimeout with
      | none => simp only [hsame _ htimer]; rfl
      | some timeout => rfl
  rw [judgeFrame_of_good hgood, ← hr] at hexec
  have htag : r.tag = tag := by rw [hr]
  have hrcrc : r.crc = crc := by rw [hr]
  have hlink : s1.link = { s.link with framer := .hunt } := by rw [hs1]
  have hrequests : s.link.requestQueue = s1.link.requestQueue := by rw [hlink]
  have hreplies : s.link.replyQueue = s1.link.replyQueue := by rw [hlink]
  have hoverruns : s.link.overruns = s1.link.overruns := by rw [hlink]
  have hpending : s.link.restartPending = s1.link.restartPending := by rw [hlink]
  have hquiet : TxdLaw s1 := htxd.congr (by rw [hlink]) hreplies.symm (by rw [hs1]; rfl)
  refine ⟨fun hnew => ?_, fun ho => ⟨fun hcache hwaiting => ?_,
    fun before e after hc hetag hecrc hb result flags fields hpayload => ?_⟩⟩
  · rw [hexec, acceptFrame_of_new (by rw [htag, hrcrc]; exact hnew), hsilence,
      arbitrate_enqueueRequest hquiet, countOverrun_eq, hrequests, hoverruns]
  · rw [hexec, acceptFrame_of_waiting (s := setFramer s .hunt) ho
      (by rw [htag, hrcrc]; exact hcache) (by rw [htag, hrcrc]; exact hwaiting), hsilence,
      arbitrate_of_txdLaw hquiet]
  · have hrepeat : e.reply.repeated =
        { e.reply with payload := result :: (flags ||| 1) :: fields } := by
      rw [Frame.repeated, hpayload]
    rw [hexec, acceptFrame_of_cached (s := setFramer s .hunt) ho hc (hetag.trans htag.symm)
      (hecrc.trans hrcrc.symm) (by rw [htag, hrcrc]; exact hb), hsilence,
      arbitrate_repeatReply hquiet, countOverrun_eq, hrepeat, hreplies, hoverruns, hpending]

/-! ## The end of a transmission -/

section
variable {s : State}

/-- While a frame still occupies TXD nothing ends (R152). -/
theorem exec_transmissionEnd_of_left {f : Frame} {left : Int}
    (ht : s.link.transmitter = .sending f left) (hleft : 0 < left) :
    exec .transmissionEnd s = .next s := by
  show execTransmissionEnd s = _
  simp [execTransmissionEnd, ht, Int.not_le.mpr hleft]

theorem exec_transmissionEnd_of_sent {f : Frame} {left : Int}
    (ht : s.link.transmitter = .sending f left) (hleft : left ≤ 0) :
    exec .transmissionEnd s = .next (endTransmission s left) := by
  show execTransmissionEnd s = _
  simp [execTransmissionEnd, ht, hleft]

theorem arbitrateCarry_of_reply {g : Frame} {rest : List Frame}
    (ht : s.link.transmitter = .idle) (hq : s.link.replyQueue = g :: rest) (carry : Int) :
    arbitrateCarry s carry = { s with link := { s.link with
      transmitter := .sending g (g.wireTime + carry), replyQueue := rest } } := by
  simp [arbitrateCarry, ht, hq, sendReply, transmit]

theorem arbitrateCarry_of_report {x : Report} (ht : s.link.transmitter = .idle)
    (hq : s.link.replyQueue = []) (hx : s.session.eligible = some x) (carry : Int) :
    arbitrateCarry s carry =
      { s with link := { s.link with transmitter := .sending x.frame (x.frame.wireTime + carry) }
               session := s.session.reportSent s.timeBase } := by
  simp [arbitrateCarry, ht, hq, sendReport, hx, transmit]

theorem arbitrateCarry_of_nothing (ht : s.link.transmitter = .idle) (hq : s.link.replyQueue = [])
    (hx : s.session.eligible = none) (carry : Int) : arbitrateCarry s carry = s := by
  simp [arbitrateCarry, ht, hq, sendReport, hx]

end

section
variable {se : Session}

/-- No report is eligible with no session, with 8 SENT, or with none left to send (R168). -/
theorem eligible_eq_none (h : se.state = .closed ∨ 8 ≤ se.sentCount ∨
    ∀ x ∈ se.reports, x.state = .sent) : se.eligible = none := by
  unfold Session.eligible
  split
  · next hmay =>
    obtain ⟨ho, hless⟩ := hmay
    rcases h with h | h | h
    · exact absurd (h.symm.trans ho) (by decide)
    · exact absurd hless (Nat.not_lt.mpr h)
    · exact List.find?_eq_none.mpr fun x hx => by simp [h x hx]
  · rfl

variable {before after : List Report} {x : Report}

/-- The oldest report that is not SENT is eligible (R168). -/
theorem eligible_of_split (ho : se.state = .opened) (hless : se.sentCount < 8)
    (hr : se.reports = before ++ x :: after) (hb : ∀ y ∈ before, y.state = .sent)
    (hx : x.state ≠ .sent) : se.eligible = some x := by
  have hnone : before.find? (fun y => y.state != .sent) = none :=
    List.find?_eq_none.mpr fun y hy => by simp [hb y hy]
  rw [Session.eligible, if_pos ⟨ho, hless⟩, hr, List.find?_append, hnone]
  simp [hx]

/-- And it becomes SENT (R168). -/
theorem markSent_of_split (hb : ∀ y ∈ before, y.state = .sent) (hx : x.state ≠ .sent) :
    markSent (before ++ x :: after) = before ++ { x with state := .sent } :: after := by
  induction before with
  | nil => exact if_neg hx
  | cons y before ih =>
    rw [List.cons_append, markSent, if_pos (hb y List.mem_cons_self),
      ih fun z hz => hb z (List.mem_cons_of_mem y hz)]
    rfl

end

/-- The time of a frame on TXD after what the frame before it left (R140, R152). -/
theorem wireTime_add (g : Frame) (carry : Int) :
    g.wireTime + carry = (g.payload.length + 6) * 10000000 + carry := by
  simp [Frame.wireTime]

/-- Settles O38: the arbiter's three choices on the state with TXD idle. -/
theorem transmissionEndStartsTheNext : Obligations.TransmissionEndStartsTheNext := by
  intro s f left carry ht hcarry
  refine ⟨exec_transmissionEnd_of_left ht, fun hleft hnot => ?_⟩
  have hcarryOf : carryOf s.link.rate left = carry := hcarry.symm
  rw [exec_transmissionEnd_of_sent ht hleft, endTransmission_of_next left hnot, hcarryOf]
  have hidle : (txdIdle s).link.transmitter = .idle := rfl
  refine ⟨fun g rest hq => ?_, fun hq => ⟨fun hnone => ?_,
    fun before x after ho hless hr hb hx g hg => ?_⟩⟩
  · rw [arbitrateCarry_of_reply hidle hq, wireTime_add]
    rfl
  · rw [arbitrateCarry_of_nothing hidle hq (eligible_eq_none hnone)]
    rfl
  · have hframe : x.frame = g := hg.symm
    rw [arbitrateCarry_of_report hidle hq (eligible_of_split ho hless hr hb hx), hframe,
      wireTime_add, ← markSent_of_split hb hx, ← hr]
    rfl

/-! ## The bytes of a frame -/

@[simp] theorem setFramer_setFramer (s : State) (f g : Framer) :
    setFramer (setFramer s f) g = setFramer s g := rfl

theorem afterBytes_cons {s : State} (h : hears s = true) (b : Byte) (rest : List Byte) :
    afterBytes (b :: rest) s = afterBytes rest (receive b s) := by
  rw [afterBytes, exec_receivedByte_of_hears h]

/-- What the receiver hears is not for the framer to say (R155). -/
theorem afterBytes_setFramer_cons {s : State} (h : hears s = true) (f : Framer) (b : Byte)
    (rest : List Byte) :
    afterBytes (b :: rest) (setFramer s f) = afterBytes rest (receive b (setFramer s f)) :=
  afterBytes_cons (s := setFramer s f) h b rest

/-- The bytes from KIND on are kept one by one, until LEN of them have come (R142). -/
theorem afterBytes_of_body {s : State} (h : hears s = true) {len : Byte}
    (bytes kept rest : List Byte) (p : Word) (hne : bytes ≠ [])
    (hlen : kept.length + bytes.length = len.toNat) :
    afterBytes (bytes ++ rest) (setFramer s (.body len kept p)) =
      afterBytes rest (setFramer s (.check len (kept ++ bytes) none s.timeBase)) := by
  induction bytes generalizing kept p with
  | nil => exact absurd rfl hne
  | cons b bytes ih =>
    rw [List.length_cons] at hlen
    rw [List.cons_append, afterBytes_setFramer_cons h, receive_of_body rfl, setFramer_setFramer]
    by_cases hmore : bytes = []
    · subst hmore
      rw [List.length_nil] at hlen
      rw [if_neg (by omega)]
      rfl
    · have hpos := List.length_pos_iff.mpr hmore
      have hkept : (kept ++ [b]).length + bytes.length = len.toNat := by
        rw [List.length_append, List.length_singleton]
        omega
      rw [if_pos (by omega)]
      exact (ih (kept ++ [b]) s.timeBase hmore hkept).trans (by rw [List.append_assoc]; rfl)

theorem frameLen_toNat {f : Frame} (h : f.payload.length ≤ 240) :
    f.len.toNat = f.payload.length + 2 := by
  rw [Frame.len, byteOf, BitVec.toNat_ofNat]
  omega

/-- The bytes of a frame, received from HUNT, have it judged as the frame it is (R141, R142). -/
theorem afterBytes_frame {s : State} {f : Frame} (h : hears s = true)
    (hf : s.link.framer = .hunt) (hlen : f.payload.length ≤ 240) :
    afterBytes f.bytes s =
      arbitrate (judgeFrame s f.len (f.kind :: f.tag :: f.payload) f.crc) := by
  have hhunt : setFramer s .hunt = s := by rw [setFramer, ← hf]
  have hvalid : invalidLen f.len = false :=
    Bool.eq_false_iff.mpr fun hinvalid => by
      have := (invalidLen_iff f.len).mp hinvalid
      rw [frameLen_toNat hlen] at this
      omega
  have hbytes : f.bytes = 0xA5 :: f.len :: ((f.kind :: f.tag :: f.payload) ++ le16 f.crc) := rfl
  rw [hbytes, afterBytes_cons h, receive_of_hunt hf, if_pos rfl,
    afterBytes_setFramer_cons h, receive_of_length rfl hvalid, setFramer_setFramer,
    afterBytes_of_body h _ _ _ _ (by simp) (by simp [frameLen_toNat hlen]),
    le16, afterBytes_setFramer_cons h, receive_of_check rfl, setFramer_setFramer,
    afterBytes_setFramer_cons h, receive_of_lastByte rfl]
  simp only [setFramer_setFramer, hhunt, read16_le16]
  rfl

/-- Settles O54: the frame is judged as itself, its CRC is good, and with no session open it is a
new request. -/
theorem frameBytesDecodeToTheRequest : Obligations.FrameBytesDecodeToTheRequest := by
  intro s f hup hheard hf hclosed htimer htxd hroom hlen
  have hsilence : restartSilence s = s := by rw [restartSilence, htimer]
  have hgood : crc16 (f.len :: f.kind :: f.tag :: f.payload) = f.crc := rfl
  rw [afterBytes_frame ((hears_iff s).mpr ⟨hup, hheard⟩) hf hlen, judgeFrame_of_good hgood,
    acceptFrame_of_new (.inl hclosed), hsilence, arbitrate_enqueueRequest htxd]
  exact if_pos hroom

end Sys2Proof.Machine

namespace Sys2Proof.Machine

/-! ## The report queue, report by report -/

/-- The channel and cause of a MISSED, by which submissions coalesce (R166). -/
def ReportBody.missedKey (b : ReportBody) : Option (Fin 8 × MissedCause) :=
  match b with
  | .missed q => some (q.channel, q.cause)
  | _ => none

/-- The channel and cause of a NEW MISSED; only such a report has a twin (R166). -/
def Report.newKey (r : Report) : Option (Fin 8 × MissedCause) :=
  if r.state = .new then r.body.missedKey else none

theorem newKey_eq_some_iff {r : Report} {k : Fin 8 × MissedCause} :
    r.newKey = some k ↔
      ∃ q, r.body = .missed q ∧ r.state = .new ∧ q.channel = k.1 ∧ q.cause = k.2 := by
  unfold Report.newKey ReportBody.missedKey
  cases hbody : r.body <;> simp [Prod.ext_iff]

theorem newKey_of_not_new {r : Report} (h : r.state ≠ .new) : r.newKey = none := if_neg h

/-- Twins are two NEW MISSED of one key (R166). -/
theorem notTwins_iff (a b : Report) :
    notTwins a b = true ↔ ∀ k, a.newKey = some k → b.newKey ≠ some k := by
  unfold notTwins
  split
  · next q r ha hb =>
    refine ⟨fun h k hka hkb => ?_, fun h => ?_⟩
    · grind [Report.newKey, ReportBody.missedKey]
    · have hown := h (q.channel, q.cause)
      grind [Report.newKey, ReportBody.missedKey]
  · next hnot =>
    refine iff_of_true rfl fun k ha hb => ?_
    obtain ⟨q, hq, -⟩ := newKey_eq_some_iff.mp ha
    obtain ⟨r, hr, -⟩ := newKey_eq_some_iff.mp hb
    exact hnot q r hq hr

/-- The report that a MISSED submission has coalesced into (R166). -/
def Report.coalesced (x : Report) (q r : MissedReport) : Report :=
  { x with body := .missed (coalesceInto q r) }

section
variable {r : MissedReport} {x : Report} {before after reports : List Report}

/-- A NEW MISSED of the submission's key takes it in (R166). -/
theorem coalesceMissed_of_key {q : MissedReport} (hbody : x.body = .missed q)
    (h : x.newKey = some (r.channel, r.cause)) :
    coalesceMissed r (x :: after) = some (x.coalesced q r :: after) := by
  obtain ⟨q', hq', hkey⟩ := newKey_eq_some_iff.mp h
  cases hbody.symm.trans hq'
  rw [coalesceMissed, hbody]
  exact if_pos hkey

/-- Any other report is passed over (R166). -/
theorem coalesceMissed_of_other (h : x.newKey ≠ some (r.channel, r.cause)) :
    coalesceMissed r (x :: after) = (coalesceMissed r after).map (x :: ·) := by
  rw [coalesceMissed]
  split
  · next q hbody => exact if_neg fun hkey => h (newKey_eq_some_iff.mpr ⟨q, hbody, hkey⟩)
  · rfl

/-- The first NEW MISSED of the submission's key takes it in (R166). -/
theorem coalesceMissed_of_split {q : MissedReport} (hbody : x.body = .missed q)
    (hx : x.newKey = some (r.channel, r.cause))
    (hb : ∀ v ∈ before, v.newKey ≠ some (r.channel, r.cause)) :
    coalesceMissed r (before ++ x :: after) = some (before ++ x.coalesced q r :: after) := by
  induction before with
  | nil => exact coalesceMissed_of_key hbody hx
  | cons v before ih =>
    obtain ⟨hv, hb⟩ := List.forall_mem_cons.mp hb
    rw [List.cons_append, coalesceMissed_of_other hv, ih hb]
    rfl

/-- A submission coalesces into a NEW MISSED of its key, unless there is none (R166). -/
theorem coalesceMissed_cases (r : MissedReport) (reports : List Report) :
    ((∀ v ∈ reports, v.newKey ≠ some (r.channel, r.cause)) ∧ coalesceMissed r reports = none) ∨
      ∃ before x q after, reports = before ++ x :: after ∧ x.body = .missed q ∧
        x.newKey = some (r.channel, r.cause) ∧
        coalesceMissed r reports = some (before ++ x.coalesced q r :: after) := by
  induction reports with
  | nil => exact .inl ⟨fun _ h => absurd h List.not_mem_nil, rfl⟩
  | cons v rest ih =>
    by_cases hv : v.newKey = some (r.channel, r.cause)
    · obtain ⟨q, hbody, -⟩ := newKey_eq_some_iff.mp hv
      exact .inr ⟨[], v, q, rest, rfl, hbody, hv, coalesceMissed_of_key hbody hv⟩
    · rw [coalesceMissed_of_other hv]
      rcases ih with ⟨hrest, hnone⟩ | ⟨before, x, q, after, hsplit, hbody, hx, hsome⟩
      · exact .inl ⟨List.forall_mem_cons.mpr ⟨hv, hrest⟩, by rw [hnone]; rfl⟩
      · exact .inr ⟨v :: before, x, q, after, by rw [hsplit]; rfl, hbody, hx, by rw [hsome]; rfl⟩

theorem coalesceMissed_eq_none (h : ∀ v ∈ reports, v.newKey ≠ some (r.channel, r.cause)) :
    coalesceMissed r reports = none := by
  rcases coalesceMissed_cases r reports with ⟨-, hnone⟩ | ⟨before, x, q, after, rfl, -, hx, -⟩
  · exact hnone
  · exact absurd hx (h x (by simp))

end

/-! ## Sequences -/

/-- Only the sequences are read of the reports (R164). -/
theorem NumberedTo.congr {next : Half} {a b : List Report} (h : NumberedTo next a)
    (hmap : b.map Report.sequence = a.map Report.sequence) : NumberedTo next b := by
  induction a generalizing b with
  | nil => rw [List.map_nil, List.map_eq_nil_iff] at hmap; rwa [hmap]
  | cons x a ih =>
    cases b with
    | nil => cases hmap
    | cons y b =>
      obtain ⟨hseq, hrest⟩ := List.cons.inj hmap
      obtain ⟨hx, ha⟩ := h
      have hlen : b.length = a.length := by simpa using congrArg List.length hrest
      exact ⟨by rw [hlen, ← hx]; exact congrArg (· + _) hseq, ih ha hrest⟩

/-- A report with the next sequence enters at the tail (R164). -/
theorem NumberedTo.concat {next : Half} {reports : List Report} {r : Report}
    (h : NumberedTo next reports) (hr : r.sequence = next) :
    NumberedTo (next + 1) (reports ++ [r]) := by
  induction reports with
  | nil => exact ⟨by rw [hr]; rfl, trivial⟩
  | cons x rest ih =>
    obtain ⟨hx, hrest⟩ := h
    have hlen : (rest ++ [r]).length = rest.length + 1 := List.length_append
    refine ⟨?_, ih hrest⟩
    show x.sequence + BitVec.ofNat 16 ((rest ++ [r]).length + 1) = next + 1
    rw [← hx, hlen, BitVec.ofNat_add (rest.length + 1) 1, ← BitVec.add_assoc]
    rfl

theorem NumberedTo.drop {next : Half} {reports : List Report} (h : NumberedTo next reports)
    (n : Nat) : NumberedTo next (reports.drop n) := by
  induction reports generalizing n with
  | nil => rwa [List.drop_nil]
  | cons x rest ih =>
    cases n with
    | zero => exact h
    | succ n =>
      obtain ⟨-, hrest⟩ := h
      exact ih hrest n

/-! ## The report queue under its law -/

section
variable {se : Session}

/-- The report queue law in terms of what it reads of the reports (R164, R166). -/
theorem queueLaw_iff :
    QueueLaw se ↔ se.reports.length ≤ 32 ∧ NumberedTo se.nextSequence se.reports ∧
      se.unacknowledged ≤ 8 ∧
      se.reports.Pairwise (fun a b => a.state.rank ≤ b.state.rank) ∧
      se.reports.Pairwise (fun a b => ∀ k, a.newKey = some k → b.newKey ≠ some k) ∧
      ∀ r ∈ se.reports, r.session = se.number := by
  simp only [QueueLaw, notTwins_iff]

theorem queueLaw_of_nil (h : se.reports = []) : QueueLaw se := by
  simp [queueLaw_iff, h, NumberedTo, Session.unacknowledged]

/-- A report changes in place: its number and session stay, its state falls no further than that of
the reports before it, and it gains no twin. -/
theorem QueueLaw.replace {before after : List Report} {x y : Report} (hs : QueueLaw se)
    (hsplit : se.reports = before ++ x :: after) (hseq : y.sequence = x.sequence)
    (hsession : y.session = x.session) (hkey : ∀ k, y.newKey = some k → x.newKey = some k)
    (hless : y.state.rank ≤ x.state.rank) (hmore : ∀ v ∈ before, v.state.rank ≤ y.state.rank)
    (hunack : (before ++ y :: after).countP Report.unacknowledged ≤ 8) :
    QueueLaw { se with reports := before ++ y :: after } := by
  rw [queueLaw_iff, hsplit] at hs
  obtain ⟨hlen, hnum, -, hrank, htwin, hnumber⟩ := hs
  obtain ⟨hrankb, hranka, hrankba⟩ := List.pairwise_append.mp hrank
  obtain ⟨htwinb, htwina, htwinba⟩ := List.pairwise_append.mp htwin
  obtain ⟨hrankx, hranka⟩ := List.pairwise_cons.mp hranka
  obtain ⟨htwinx, htwina⟩ := List.pairwise_cons.mp htwina
  refine queueLaw_iff.mpr ⟨by simpa using hlen, hnum.congr (by simp [hseq]), hunack, ?_, ?_, ?_⟩
  · refine List.pairwise_append.mpr ⟨hrankb, List.pairwise_cons.mpr
      ⟨fun v hv => hless.trans (hrankx v hv), hranka⟩, fun u hu => List.forall_mem_cons.mpr
      ⟨hmore u hu, fun v hv => hrankba u hu v (List.mem_cons_of_mem x hv)⟩⟩
  · refine List.pairwise_append.mpr ⟨htwinb, List.pairwise_cons.mpr
      ⟨fun v hv k hk => htwinx v hv k (hkey k hk), htwina⟩, fun u hu => List.forall_mem_cons.mpr
      ⟨fun k hk hy => htwinba u hu x List.mem_cons_self k hk (hkey k hy),
        fun v hv => htwinba u hu v (List.mem_cons_of_mem x hv)⟩⟩
  · simpa only [List.forall_mem_append, List.forall_mem_cons, hsession] using hnumber

/-- A report enters at the tail: there is room, and it has no twin (R164, R166). -/
theorem QueueLaw.enter (hs : QueueLaw se) {b : ReportBody} (room : se.reports.length < 32)
    (hfresh : ∀ k, b.missedKey = some k → ∀ r ∈ se.reports, r.newKey ≠ some k) :
    QueueLaw (se.enter b) := by
  obtain ⟨-, hnum, hunack, hrank, htwin, hnumber⟩ := queueLaw_iff.mp hs
  refine queueLaw_iff.mpr ⟨?_, hnum.concat rfl, ?_, ?_, ?_, ?_⟩
  · simpa [enter_eq] using room
  · simpa [Session.unacknowledged, enter_eq, Report.unacknowledged] using hunack
  · refine List.pairwise_append.mpr ⟨hrank, List.pairwise_singleton _ _, ?_⟩
    simp only [List.forall_mem_singleton]
    exact fun r _ => by cases r.state <;> decide
  · refine List.pairwise_append.mpr ⟨htwin, List.pairwise_singleton _ _, ?_⟩
    simp only [List.forall_mem_singleton]
    exact fun r hr k hk hb => hfresh k hb r hr hk
  · simpa [enter_eq, or_imp, forall_and] using hnumber

/-- Reports leave at the head (R169). -/
theorem QueueLaw.drop (hs : QueueLaw se) (n : Nat) :
    QueueLaw { se with reports := se.reports.drop n } := by
  obtain ⟨hlen, hnum, hunack, hrank, htwin, hnumber⟩ := queueLaw_iff.mp hs
  have hsub := List.drop_sublist n se.reports
  exact queueLaw_iff.mpr ⟨hsub.length_le.trans hlen, hnum.drop n, (hsub.countP_le).trans hunack,
    hrank.sublist hsub, htwin.sublist hsub, fun r hr => hnumber r (hsub.subset hr)⟩

/-- The report that takes a MISSED in keeps its place, its state and its key (R166). -/
theorem QueueLaw.coalesce (hs : QueueLaw se) {before after : List Report} {x : Report}
    {q r : MissedReport} (hsplit : se.reports = before ++ x :: after)
    (hx : x.newKey = some (r.channel, r.cause)) :
    QueueLaw { se with reports := before ++ x.coalesced q r :: after } := by
  obtain ⟨-, -, hunack, hrank, -⟩ := queueLaw_iff.mp hs
  rw [hsplit] at hrank
  rw [Session.unacknowledged, hsplit] at hunack
  obtain ⟨-, -, hrank⟩ := List.pairwise_append.mp hrank
  have hkey : (x.coalesced q r).newKey = some (r.channel, r.cause) := by
    obtain ⟨-, -, hnew, -⟩ := newKey_eq_some_iff.mp hx
    exact newKey_eq_some_iff.mpr ⟨_, rfl, hnew, rfl, rfl⟩
  refine hs.replace hsplit rfl rfl (fun k hk => hx.trans (hkey.symm.trans hk)) le_rfl
    (fun v hv => hrank v hv x List.mem_cons_self) ?_
  simpa [List.countP_cons, Report.unacknowledged, Report.coalesced] using hunack

/-- What is eligible is the first report that is not SENT, with the session OPEN and fewer than 8
SENT (R168). -/
theorem exists_split_of_eligible {x : Report} (h : se.eligible = some x) :
    se.state = .opened ∧ se.sentCount < 8 ∧ x.state ≠ .sent ∧
      ∃ before after, se.reports = before ++ x :: after ∧ ∀ v ∈ before, v.state = .sent := by
  unfold Session.eligible at h
  split at h
  · next hmay =>
    obtain ⟨ho, hless⟩ := hmay
    obtain ⟨hx, before, after, hsplit, hb⟩ := List.find?_eq_some_iff_append.mp h
    exact ⟨ho, hless, by simpa using hx, before, after, hsplit, by simpa using hb⟩
  · cases h

/-- Nothing but NEW stands behind NEW (R164). -/
theorem eq_new_of_rank_le {r : ReportState} (h : ReportState.new.rank ≤ r.rank) : r = .new := by
  cases r with
  | new => rfl
  | sent => exact absurd h (by decide)
  | resend => exact absurd h (by decide)

/-- The queue with the eligible report sent has one more SENT (R168). -/
theorem sentCount_markSent {x : Report} (h : se.eligible = some x) :
    (markSent se.reports).countP (fun r => r.state == .sent) = se.sentCount + 1 := by
  obtain ⟨-, -, hx, before, after, hsplit, hb⟩ := exists_split_of_eligible h
  rw [Session.sentCount, hsplit, markSent_of_split hb hx]
  simp [hx, Nat.add_assoc]

/-- The eligible report is sent: where it is a RESEND, as many are unacknowledged as before, and where
it is NEW, the reports behind it are NEW too (R164, R168). -/
theorem QueueLaw.markSent (hs : QueueLaw se) {x : Report} (h : se.eligible = some x) :
    QueueLaw { se with reports := markSent se.reports } := by
  obtain ⟨-, hless, hx, before, after, hsplit, hb⟩ := exists_split_of_eligible h
  obtain ⟨-, -, hunack, hrank, -⟩ := queueLaw_iff.mp hs
  rw [hsplit] at hrank
  obtain ⟨-, hranka, -⟩ := List.pairwise_append.mp hrank
  obtain ⟨hafter, -⟩ := List.pairwise_cons.mp hranka
  have hsent : before.length < 8 := by
    have hbefore : before.countP (fun r => r.state == .sent) = before.length :=
      List.countP_eq_length.mpr fun v hv => by simp [hb v hv]
    rw [Session.sentCount, hsplit, List.countP_append, hbefore] at hless
    omega
  rw [hsplit, markSent_of_split hb hx]
  refine hs.replace hsplit rfl rfl (fun k hk => ?_) (Nat.zero_le _) (fun v hv => ?_) ?_
  · rw [newKey_of_not_new (by simp)] at hk
    cases hk
  · rw [hb v hv]
  rw [Session.unacknowledged, hsplit] at hunack
  rw [List.countP_append, List.countP_cons] at hunack ⊢
  cases hstate : x.state with
  | sent => exact absurd hstate hx
  | resend => simpa [Report.unacknowledged, hstate] using hunack
  | new =>
    have hrest : after.countP Report.unacknowledged = 0 :=
      List.countP_eq_zero.mpr fun v hv => by
        have hnew : v.state = .new := eq_new_of_rank_le (hstate ▸ hafter v hv)
        simp [Report.unacknowledged, hnew]
    have hbefore : before.countP Report.unacknowledged ≤ before.length := List.countP_le_length
    rw [hrest]
    split <;> omega

theorem toResend_newKey (r : Report) : (toResend r).newKey = r.newKey := by
  unfold toResend
  split
  · next h => rw [newKey_of_not_new (by simp), newKey_of_not_new (by simp [h])]
  · rfl

/-- A report that turns from SENT to RESEND stays unacknowledged, and no report overtakes another
(R164, R170). -/
theorem QueueLaw.resend (hs : QueueLaw se) :
    QueueLaw { se with reports := se.reports.map toResend, resendTimer := none } := by
  obtain ⟨hlen, hnum, hunack, hrank, htwin, hnumber⟩ := queueLaw_iff.mp hs
  have hfields : ∀ r, (toResend r).sequence = r.sequence ∧ (toResend r).session = r.session ∧
      (toResend r).unacknowledged = r.unacknowledged ∧
      (toResend r).state.rank = max 1 r.state.rank := fun r => by
    unfold toResend Report.unacknowledged
    cases h : r.state <;> simp [ReportState.rank, h, bne]
  refine queueLaw_iff.mpr ⟨by simpa using hlen, hnum.congr ?_, ?_, ?_, ?_, ?_⟩
  · simp [Function.comp_def, hfields]
  · simpa [Session.unacknowledged, List.countP_map, Function.comp_def, hfields] using hunack
  · refine List.pairwise_map.mpr (hrank.imp fun h => ?_)
    simp only [hfields]
    omega
  · simpa only [List.pairwise_map, toResend_newKey] using htwin
  · simpa [hfields] using hnumber

theorem sentCount_toResend (reports : List Report) :
    (reports.map toResend).countP (fun r => r.state == .sent) = 0 := by
  refine List.countP_eq_zero.mpr ?_
  simp only [List.forall_mem_map]
  intro r _
  unfold toResend
  cases h : r.state <;> simp [h]

end

end Sys2Proof.Machine

namespace Sys2Proof.Machine

/-! ## What a submission does to the session -/

/-- From `se` to `se'` reports have entered the queue, coalesced or been counted lost: the session's
own fields stay, the report queue law is kept, and no report has become SENT or left. -/
structure Enqueues (se se' : Session) : Prop where
  rest : se' = { se with reports := se'.reports, nextSequence := se'.nextSequence,
                         lost := se'.lost }
  law : QueueLaw se → QueueLaw se'
  sent : se'.sentCount = se.sentCount

section
variable {se se' : Session} {b : ReportBody}

theorem Enqueues.refl (se : Session) : Enqueues se se := ⟨rfl, id, rfl⟩

theorem Enqueues.trans {x y z : Session} (h : Enqueues x y) (h' : Enqueues y z) :
    Enqueues x z := by
  refine ⟨?_, h'.law ∘ h.law, h'.sent.trans h.sent⟩
  rw [h'.rest, h.rest]

/-- Counting a report as lost touches no report (R165). -/
theorem enqueues_lost (se : Session) (lost : LostCounts) :
    Enqueues se { se with lost := lost } := ⟨rfl, id, rfl⟩

/-- No NEW MISSED of the queue has the key of the body (R166). -/
def Fresh (b : ReportBody) (se : Session) : Prop :=
  ∀ k, b.missedKey = some k → ∀ r ∈ se.reports, r.newKey ≠ some k

theorem fresh_of_notMissed (h : b.missedKey = none) (se : Session) : Fresh b se :=
  fun _ hk => absurd (h.symm.trans hk) nofun

/-- With a free slot a report that has no twin enters (R164). -/
theorem enqueues_enter (room : 1 ≤ se.freeSlots) (hfresh : Fresh b se) :
    Enqueues se (se.enter b) :=
  ⟨rfl, fun hs => hs.enter (Nat.lt_of_sub_pos room) hfresh,
    by simp [Session.sentCount, enter_eq, List.countP_append]⟩

/-- Three free slots are a free slot. -/
theorem freeSlots_of_ordinaryRoom (h : Config.ordinaryRoom ≤ se.freeSlots) : 1 ≤ se.freeSlots :=
  (by decide : 1 ≤ Config.ordinaryRoom).trans h

/-- The REPORTS_LOST check enters at most one report, which has no twin (R167). -/
theorem enqueues_lossCheck (se : Session) : Enqueues se se.lossCheck := by
  unfold Session.lossCheck
  split
  · next h =>
    obtain ⟨-, room⟩ := h
    exact (enqueues_enter (freeSlots_of_ordinaryRoom room) (fresh_of_notMissed rfl se)).trans
      (enqueues_lost _ _)
  · exact .refl se

/-- The REPORTS_LOST check puts no twin in the queue (R166, R167). -/
theorem Fresh.lossCheck (h : Fresh b se) : Fresh b se.lossCheck := by
  unfold Session.lossCheck
  split
  · intro k hk
    refine List.forall_mem_append.mpr ⟨h k hk, List.forall_mem_singleton.mpr ?_⟩
    simp [Report.newKey, ReportBody.missedKey]
  · exact h

theorem enqueues_submitOrdinary (h : Fresh b se) : Enqueues se (se.submitOrdinary b) := by
  refine (enqueues_lossCheck se).trans ?_
  unfold Session.submitOrdinary
  dsimp only
  split
  · next room => exact enqueues_enter (freeSlots_of_ordinaryRoom room) h.lossCheck
  · exact enqueues_lost _ _

theorem enqueues_submitUrgent (h : Fresh b se) : Enqueues se (se.submitUrgent b) := by
  unfold Session.submitUrgent
  split
  · next room => exact enqueues_enter room h
  · exact enqueues_lost _ _

/-- A MISSED coalesces into its twin and is admitted without one; no other report has a twin
(R166). -/
theorem enqueues_judge (se : Session) (b : ReportBody) : Enqueues se (se.judge b) := by
  unfold Session.judge
  split
  · next r =>
    rcases coalesceMissed_cases r se.reports with ⟨hfresh, hnone⟩ |
      ⟨before, x, q, after, hsplit, -, hx, hsome⟩
    · rw [hnone]
      exact enqueues_submitOrdinary fun k hk => by cases hk; exact hfresh
    · rw [hsome]
      refine ⟨rfl, fun hs => hs.coalesce hsplit hx, ?_⟩
      simp [Session.sentCount, hsplit, List.countP_cons, Report.coalesced]
  · next hnot =>
    have hfresh : Fresh b se := by
      refine fresh_of_notMissed ?_ se
      unfold ReportBody.missedKey
      split
      · next q => exact absurd rfl (hnot q)
      · rfl
    split
    · exact enqueues_submitUrgent hfresh
    · exact enqueues_submitOrdinary hfresh

theorem enqueues_submit (se : Session) (b : ReportBody) : Enqueues se (se.submit b) := by
  unfold Session.submit
  split
  · split
    · exact enqueues_judge se b
    · exact .refl se
  · exact .refl se

/-- A move of the capture log enters a CAPTURE report, after the REPORTS_LOST check (R125, R167). -/
theorem enqueues_moveCaptures (n : Nat) (time line : Word) (cap : Capture) (se : Session) :
    Enqueues se (moveCaptures n time line cap se).2 := by
  induction n generalizing cap se with
  | zero => exact .refl se
  | succ n ih =>
    unfold moveCaptures
    split
    · split
      · exact .refl se
      · dsimp only
        refine (enqueues_lossCheck se).trans ?_
        split
        · next room =>
          exact (enqueues_enter (freeSlots_of_ordinaryRoom room) (fresh_of_notMissed rfl _)).trans
            (ih _ _)
        · exact .refl _
    · exact .refl se

/-! ## The laws of the session and report unit -/

theorem sessionLaw_of_closed (hclosed : se.state = .closed) (hlaw : ClosedLaw se) :
    SessionLaw se := by
  obtain ⟨hnil, -⟩ := hlaw hclosed
  have hnot : se.state ≠ .opened := by simp [hclosed]
  exact ⟨queueLaw_of_nil hnil, hlaw, fun ho => absurd ho hnot, fun ho => absurd ho hnot⟩

theorem sessionLaw_close (se : Session) (cause : CloseCause) : SessionLaw (se.close cause) :=
  sessionLaw_of_closed rfl fun _ => ⟨rfl, rfl, rfl, rfl, rfl, rfl, rfl⟩

/-- In an OPEN session the queue has moved under its law and the resend timer has been kept in step;
the session's number and settings stay. -/
theorem SessionLaw.of_queue (hs : SessionLaw se) (ho : se.state = .opened)
    (hrest : se' = { se with reports := se'.reports, nextSequence := se'.nextSequence
                             lost := se'.lost, resendTimer := se'.resendTimer })
    (hqueue : QueueLaw se')
    (hresend : se'.resendTimer.isSome = true ↔ se.resendTime ≠ some 0 ∧ 0 < se'.sentCount) :
    SessionLaw se' := by
  obtain ⟨-, -, hopened, -⟩ := hs
  have ho' : se'.state = .opened := by rw [hrest]; exact ho
  have htime : se'.resendTime = se.resendTime := by rw [hrest]
  refine ⟨hqueue, fun hc => absurd (ho'.symm.trans hc) nofun, fun _ => ?_, fun _ => ?_⟩
  · rw [hrest]
    exact hopened ho
  · rw [htime]
    exact hresend

theorem SessionLaw.enqueues (hs : SessionLaw se) (ho : se.state = .opened)
    (h : Enqueues se se') : SessionLaw se' := by
  obtain ⟨hqueue, -, -, hresend⟩ := id hs
  refine hs.of_queue ho ?_ (h.law hqueue) ?_
  · rw [h.rest]
  · rw [h.sent, h.rest]
    exact hresend ho

/-- With no session a submission is discarded; with one it enqueues (R165). -/
theorem SessionLaw.submit (hs : SessionLaw se) (b : ReportBody) : SessionLaw (se.submit b) := by
  cases hstate : se.state with
  | closed => rwa [submit_of_closed hstate]
  | opened => exact hs.enqueues hstate (enqueues_submit se b)

theorem SessionLaw.submitAll (hs : SessionLaw se) (reports : List ReportBody) :
    SessionLaw (submitAll reports se) := by
  induction reports generalizing se with
  | nil => exact hs
  | cons b reports ih => exact ih (hs.submit b)

theorem SessionLaw.resendTime_isSome (hs : SessionLaw se) (ho : se.state = .opened) :
    se.resendTime.isSome = true := by
  obtain ⟨-, -, hopened, -⟩ := hs
  obtain ⟨-, -, htime, -⟩ := hopened ho
  exact htime

/-- A resend time other than 0 starts the timer (R170). -/
theorem startResend_isSome_iff (h : se.resendTime.isSome = true) (now : Word) :
    (se.startResend now).isSome = true ↔ se.resendTime ≠ some 0 := by
  obtain ⟨w, hw⟩ := Option.isSome_iff_exists.mp h
  by_cases h0 : w = 0 <;> simp [Session.startResend, hw, h0]

/-- The first SENT report starts the resend timer (R168, R170). -/
theorem SessionLaw.reportSent (hs : SessionLaw se) {x : Report} (h : se.eligible = some x)
    (now : Word) : SessionLaw (se.reportSent now) := by
  obtain ⟨ho, -⟩ := exists_split_of_eligible h
  obtain ⟨hqueue, -, -, hresend⟩ := id hs
  refine hs.of_queue ho rfl (hqueue.markSent h) ?_
  have hcount : (se.reportSent now).sentCount = se.sentCount + 1 := sentCount_markSent h
  rw [hcount, Session.reportSent]
  by_cases hzero : se.sentCount = 0
  · simpa [hzero] using startResend_isSome_iff (hs.resendTime_isSome ho) now
  · simpa [hzero, Nat.pos_of_ne_zero hzero] using hresend ho

/-- The resend timer runs in an OPEN session only (R158). -/
theorem SessionLaw.opened_of_expired (hs : SessionLaw se) {now : Word}
    (h : timerExpired now se.resendTimer = true) : se.state = .opened := by
  obtain ⟨-, hclosed, -⟩ := hs
  cases hstate : se.state with
  | opened => rfl
  | closed =>
    obtain ⟨-, -, -, hnone, -⟩ := hclosed hstate
    rw [hnone] at h
    cases h

/-- Every SENT report becomes RESEND, and the resend timer stops (R170). -/
theorem SessionLaw.resend (hs : SessionLaw se) (ho : se.state = .opened) :
    SessionLaw { se with reports := se.reports.map toResend, resendTimer := none } := by
  obtain ⟨hqueue, -⟩ := id hs
  refine hs.of_queue ho rfl hqueue.resend ?_
  rw [Session.sentCount, sentCount_toResend]
  simp

/-- Acknowledged reports leave, and the resend timer runs on while a SENT report remains (R169,
R170). -/
theorem SessionLaw.acknowledge (hs : SessionLaw se) (ho : se.state = .opened) (now : Word)
    (n : Nat) : SessionLaw (se.acknowledge now n) := by
  obtain ⟨hqueue, -⟩ := id hs
  refine hs.of_queue ho rfl (hqueue.drop n) ?_
  have hdropped : ∀ se1 : Session, se1.resendTime = se.resendTime →
      ((if se1.sentCount = 0 then none else se1.startResend now).isSome = true ↔
        se.resendTime ≠ some 0 ∧ 0 < se1.sentCount) := fun se1 htime => by
    split
    · next hzero => simp [hzero]
    · next hzero =>
      rw [startResend_isSome_iff (htime ▸ hs.resendTime_isSome ho), htime]
      simp [Nat.pos_of_ne_zero hzero]
  exact hdropped { se with reports := se.reports.drop n } rfl

/-- The next session has its settings, and its number is not 0 (R158, R160). -/
theorem sessionLaw_openNew (se : Session) (now : Word) (silence resend : Half)
    (mask : ReportMask) : SessionLaw (se.openNew now silence resend mask) := by
  have hnumber : nextSession se.number ≠ 0 := by
    unfold nextSession
    split
    · decide
    · bv_omega
  refine ⟨queueLaw_of_nil rfl, nofun, fun _ => ⟨hnumber, rfl, rfl, rfl, ?_⟩, fun _ => ?_⟩
  · by_cases h : silence = 0 <;> simp [Session.openNew, h]
  · simp [Session.openNew, Session.sentCount]

/-- A good frame restarts a running silence timer, and leaves a stopped one (R144, R162). -/
theorem SessionLaw.silenceTimer (hs : SessionLaw se) (h : se.silenceTimer.isSome = true)
    (p : Word) : SessionLaw { se with silenceTimer := some p } := by
  obtain ⟨hqueue, hclosed, hopened, hresend⟩ := hs
  refine ⟨hqueue, fun hc => ?_, fun ho => ?_, hresend⟩
  · obtain ⟨-, -, hnone, -⟩ := hclosed hc
    rw [hnone] at h
    cases h
  · obtain ⟨hnumber, hmask, hresendTime, htimeout, hruns⟩ := hopened ho
    exact ⟨hnumber, hmask, hresendTime, htimeout, fun _ => hruns.mp h, fun _ => rfl⟩

end

end Sys2Proof.Machine

namespace Sys2Proof.Machine

/-! ## What the other blocks do to the session -/

/-- From `s` to `t` the session has been told some reports, one after another, and nothing else. -/
def Submits (s t : State) : Prop := ∃ reports, t.session = submitAll reports s.session

theorem Submits.of_session {s t : State} (h : t.session = s.session) : Submits s t := ⟨[], h⟩

theorem Submits.refl (s : State) : Submits s s := .of_session rfl

theorem Submits.trans {s t u : State} (h : Submits s t) (h' : Submits t u) : Submits s u := by
  obtain ⟨reports, ht⟩ := h
  obtain ⟨more, hu⟩ := h'
  exact ⟨reports ++ more, by rw [submitAll_append, ← ht, hu]⟩

theorem Submits.law {s t : State} (h : Submits s t) (hs : SessionLaw s.session) :
    SessionLaw t.session := by
  obtain ⟨reports, ht⟩ := h
  exact ht ▸ hs.submitAll reports

theorem submits_submit (s : State) (b : ReportBody) : Submits s (submit s b) := ⟨[b], rfl⟩

/-! ### The channel engine -/

section
variable (s : State) (c : Fin 8)

theorem submits_dropHeads (cause : MissedCause) (p : Entry → Bool) :
    Submits s (dropHeads s c cause p) := by
  unfold dropHeads
  dsimp only
  rw [foldl_loseEntry]
  exact ⟨_, rfl⟩

theorem submits_flushQueue (cause : MissedCause) : Submits s (flushQueue s c cause) :=
  ⟨_, by rw [flushQueue_eq, withSession_session]⟩

theorem submits_endFiring (f : Firing) (e : Word) (o : FiringOutcome) :
    Submits s (endFiring s c f e o) := by
  unfold endFiring
  split
  · exact .refl s
  · exact submits_submit ..

theorem submits_haltChannel : Submits s (haltChannel s c) :=
  ⟨_, by rw [haltChannel_eq, withSession_session]⟩

theorem submits_discardPending : Submits s (discardPending s c) :=
  .of_session (releaseUse_session s _)

theorem submits_applyPending : Submits s (applyPending s c) := by
  cases hpending : (s.chan c).pending with
  | none => rw [applyPending_of_none hpending]; exact .refl s
  | some b => exact ⟨[_], by rw [applyPending_of_pending hpending]; rfl⟩

theorem submits_leaveService (cause : OffCause) : Submits s (leaveService s c cause) :=
  submits_submit ..

theorem submits_restAfterFiring : Submits s (restAfterFiring s c) := by
  unfold restAfterFiring
  split
  · exact submits_leaveService ..
  · exact .refl s

theorem submits_examineQueue (b : Binding) (e : Word) : Submits s (examineQueue s c b e) := by
  unfold examineQueue
  dsimp only
  refine (submits_dropHeads s c .late (tooLate b e)).trans ?_
  split
  · exact submits_restAfterFiring ..
  · split
    · exact .of_session rfl
    · exact submits_restAfterFiring ..

theorem submits_examineEnd (e : Word) : Submits s (examineEnd s c e) := by
  unfold examineEnd
  dsimp only
  refine (submits_applyPending s c).trans ?_
  split
  · exact .refl _
  · exact submits_examineQueue ..

theorem submits_wrapPoint (b : Binding) (f : Firing) (target : Option Nat) (e : Word) :
    Submits s (wrapPoint s c b f target e) := by
  unfold wrapPoint
  dsimp only
  split
  · exact (submits_applyPending s c).trans (submits_submit ..)
  · split
    · exact submits_applyPending s c
    · exact .of_session rfl
    · exact .of_session rfl

theorem submits_jumpToLoop (b : Binding) (f : Firing) (e : Word) :
    Submits s (jumpToLoop s c b f e) := by
  unfold jumpToLoop
  cases b.mode with
  | triggered => exact .of_session rfl
  | continuous => exact submits_wrapPoint ..

theorem submits_endStep (b : Binding) (f : Firing) (e : Word) :
    Submits s (endStep s c b f e) := by
  unfold endStep
  dsimp only
  split
  · exact .of_session rfl
  split
  · exact submits_jumpToLoop ..
  split
  · exact submits_jumpToLoop ..
  · cases b.mode with
    | triggered => exact (submits_endFiring ..).trans (submits_examineEnd ..)
    | continuous => exact submits_wrapPoint ..

theorem submits_takeOffer (o : Offer) : Submits s (takeOffer s c o) := by
  unfold takeOffer
  split
  · exact submits_endStep ..
  · exact .refl s

theorem submits_dueWhileRunning (b : Binding) : Submits s (dueWhileRunning s c b) := by
  unfold dueWhileRunning
  cases b.overlap with
  | defer => exact .refl s
  | drop => exact submits_dropHeads ..

theorem submits_handleDue : Submits s (handleDue s c) := by
  unfold handleDue
  dsimp only
  split
  · split
    · split
      · split
        · exact submits_dueWhileRunning ..
        · exact .refl s
      · split
        · exact Submits.trans (.of_session rfl) (submits_dueWhileRunning ..)
        · exact .refl s
    · exact .refl s
  · exact .refl s

theorem submits_createEntry (source : Source) (trigger due : Word) :
    Submits s (createEntry s c source trigger due) := by
  unfold createEntry
  dsimp only
  split
  · exact Submits.trans (.of_session rfl) (submits_handleDue ..)
  · exact .of_session rfl

theorem submits_refuseTrigger (t : Trigger) (cause : MissedCause) :
    Submits s (refuseTrigger s c t cause) := by
  unfold refuseTrigger
  dsimp only
  split
  · exact ⟨[_], rfl⟩
  · exact ⟨[_], rfl⟩

theorem submits_acceptTrigger (b : Binding) (t : Trigger) :
    Submits s (acceptTrigger s c b t) := by
  unfold acceptTrigger
  split
  · exact submits_refuseTrigger ..
  · exact submits_createEntry ..

theorem submits_takeTrigger (t : Trigger) : Submits s (takeTrigger s c t) := by
  unfold takeTrigger
  dsimp only
  split
  · exact .refl s
  · exact submits_refuseTrigger ..
  · exact submits_refuseTrigger ..
  all_goals
    split
    · exact .refl s
    · split
      · exact submits_acceptTrigger ..
      · exact submits_refuseTrigger ..

theorem submits_actOnStall : Submits s (actOnStall s c) := by
  unfold actOnStall
  dsimp only
  split
  · split
    · split
      · exact (submits_endFiring ..).trans (submits_examineEnd ..)
      · exact (submits_discardPending (clearFiring s c) c).trans (submits_leaveService ..)
    · exact .refl s
  · exact .refl s

end

/-! ### The cutoff, the line and the capture inputs -/

section
variable (s : State)

theorem submits_trip (cause : CutoffCause) : Submits s (trip s cause) := by
  cases hlatch : s.cutoff.latch with
  | clear => exact ⟨_, by rw [trip_of_clear hlatch]⟩
  | tripped =>
    cases hcause : s.cutoff.causes.has cause with
    | true => rw [trip_of_knownCause hlatch hcause]; exact .refl s
    | false => rw [trip_of_newCause hlatch hcause]; exact ⟨[_], rfl⟩

theorem submits_riseLine : Submits s (riseLine s) := by
  unfold riseLine
  dsimp only
  split
  · exact ⟨[_], rfl⟩
  · exact .of_session rfl

theorem submits_stallLine : Submits s (stallLine s) := ⟨[_], rfl⟩

theorem submits_applyLineFilter : Submits s (applyLineFilter s) := by
  unfold applyLineFilter
  split
  · exact submits_riseLine s
  · exact .of_session rfl
  · exact .refl s

theorem submits_applyStallLimit : Submits s (applyStallLimit s) := by
  unfold applyStallLimit
  split
  · exact .of_session rfl
  split
  · exact submits_stallLine s
  · exact .refl s

theorem submits_applyLineSettings : Submits s (applyLineSettings s) := by
  unfold applyLineSettings
  dsimp only
  split
  · refine Submits.trans (t := { s with freeCount := s.freeCount + 1 }) (.of_session rfl) ?_
    split
    · exact (submits_applyLineFilter _).trans (submits_applyStallLimit _)
    · exact (submits_applyStallLimit _).trans (submits_applyLineFilter _)
  · exact (submits_applyLineFilter s).trans (submits_applyStallLimit _)

end

/-! ## The laws of the session and report unit across an event -/

section
variable {s t : State}

/-- Capture moves are made in an OPEN session only (R125). -/
theorem SessionLaw.tryMoves (hs : SessionLaw s.session) : SessionLaw (tryMoves s).session := by
  cases hstate : s.session.state with
  | closed => rwa [tryMoves_of_closed hstate]
  | opened => exact hs.enqueues hstate (enqueues_moveCaptures ..)

theorem SessionLaw.acceptEdge (hs : SessionLaw s.session) (i : Fin 4) (level : Level) :
    SessionLaw (acceptEdge s i level).session := by
  rw [acceptEdge_eq_handOn, handOn_session]
  unfold logEdge
  dsimp only
  split
  · unfold logEvent
    dsimp only
    split
    · exact hs
    · exact SessionLaw.tryMoves (s := { s.setInput i _ with capture := _ }) hs
  · exact hs

/-- The arbiter may tell the session that its eligible report is sent (R152, R168). -/
theorem SessionLaw.sendReport (hs : SessionLaw s.session) (carry : Int) :
    SessionLaw (sendReport s carry).session := by
  unfold Machine.sendReport
  split
  · exact hs
  · next h => exact hs.reportSent h s.timeBase

theorem SessionLaw.arbitrateCarry (hs : SessionLaw s.session) (carry : Int) :
    SessionLaw (arbitrateCarry s carry).session := by
  unfold Machine.arbitrateCarry
  split
  · exact hs
  · split
    · unfold sendReply
      split
      · exact hs
      · exact hs
    · exact hs.sendReport carry

theorem SessionLaw.arbitrate (hs : SessionLaw s.session) : SessionLaw (arbitrate s).session :=
  hs.arbitrateCarry 0

/-- Whichever frame the free value picks (log 8). -/
theorem SessionLaw.arbitrateEither (hs : SessionLaw s.session) :
    SessionLaw (arbitrateEither s).session := by
  unfold Machine.arbitrateEither
  dsimp only
  split
  · split
    · exact SessionLaw.sendReport (s := { s with freeCount := s.freeCount + 1 }) hs 0
    · exact SessionLaw.arbitrate (s := { s with freeCount := s.freeCount + 1 }) hs
  · exact hs.arbitrate

theorem sessionLaw_closeSession (s : State) (cause : CloseCause) :
    SessionLaw (closeSession s cause).session := by
  obtain ⟨-, heq⟩ := closeSession_spec s _ cause rfl
  rw [heq]
  exact sessionLaw_close s.session cause

theorem SessionLaw.restartSilence (hs : SessionLaw s.session) :
    SessionLaw (restartSilence s).session := by
  unfold Machine.restartSilence
  split
  · next hrunning _ => exact hs.silenceTimer (by rw [hrunning]; rfl) _
  · exact hs

theorem enqueueRequest_session (s : State) (r : Request) :
    (enqueueRequest s r).session = s.session := by
  unfold enqueueRequest
  split <;> rfl

theorem repeatReply_session (s : State) (e : CacheEntry) :
    (repeatReply s e).session = s.session := by
  unfold repeatReply
  split
  · rfl
  · split <;> rfl

/-- A good frame restarts the silence timer, whatever else becomes of it (R144). -/
theorem acceptFrame_session (s : State) (r : Request) :
    (acceptFrame s r).session = (restartSilence s).session := by
  unfold acceptFrame
  dsimp only
  split
  · split
    · rw [repeatReply_session]
    · split
      · rfl
      · rw [enqueueRequest_session]
  · rw [enqueueRequest_session]

theorem SessionLaw.receive (hs : SessionLaw s.session) (b : Byte) :
    SessionLaw (receive b s).session := by
  unfold Machine.receive
  split
  · split
    · exact hs
    · exact hs
  · split
    · exact hs
    · exact hs
  · exact hs
  · exact hs
  · refine SessionLaw.arbitrate ?_
    unfold judgeFrame
    split
    · exact hs
    split
    · rw [acceptFrame_session]
      exact SessionLaw.restartSilence (s := setFramer s .hunt) hs
    · exact hs

theorem SessionLaw.softReset (hs : SessionLaw s.session) : SessionLaw (softReset s).session := by
  obtain ⟨heq, -⟩ := softReset_spec s _ rfl
  rw [heq]
  dsimp only
  split
  · exact sessionLaw_close s.session .restart
  · exact hs

theorem SessionLaw.endTransmission (hs : SessionLaw s.session) (left : Int) :
    SessionLaw (endTransmission s left).session := by
  by_cases h : s.link.restartPending = true ∧ s.link.replyQueue = []
  · rw [endTransmission_of_restart left h]
    exact SessionLaw.softReset (s := txdIdle s) hs
  · rw [endTransmission_of_next left h]
    exact SessionLaw.arbitrateCarry (s := txdIdle s) hs _

theorem SessionLaw.endStartUp (hs : SessionLaw s.session) :
    SessionLaw (endStartUp s).session := by
  unfold Machine.endStartUp
  dsimp only
  split
  · exact (submits_trip _ .pin).law hs
  · exact hs

theorem tick_session (pins : Pins) (s : State) : (tick pins s).session = s.session := by
  unfold tick
  dsimp only
  split <;> rfl

end

end Sys2Proof.Machine

namespace Sys2Proof.Machine

/-! ## What the execution of a request does to the session -/

/-- The execution of a request with this answer keeps the laws of the session and report unit. -/
def KeepsSession (answer : State → List Byte → Answer × State) : Prop :=
  ∀ s payload, SessionLaw s.session → SessionLaw (answer s payload).2.session

/-- The execution of a request with this answer does not touch the session. -/
def LeavesSession (answer : State → List Byte → Answer × State) : Prop :=
  ∀ s payload, (answer s payload).2.session = s.session

theorem LeavesSession.keeps {answer : State → List Byte → Answer × State}
    (h : LeavesSession answer) : KeepsSession answer :=
  fun s payload hs => by rwa [h s payload]

theorem inSession_session {s : State} {n : Nat} {k : Answer × State}
    (hk : k.2.session = s.session) : (inSession s n k).2.session = s.session := by
  unfold inSession
  split
  · rfl
  · exact hk

/-- After the session check the session is OPEN (R147). -/
theorem sessionLaw_inSession {s : State} {n : Nat} {k : Answer × State}
    (hs : SessionLaw s.session)
    (hk : s.session.state = .opened → SessionLaw k.2.session) :
    SessionLaw (inSession s n k).2.session := by
  cases hstate : s.session.state with
  | closed => rwa [inSession_of_closed hstate]
  | opened => rw [inSession_of_opened hstate]; exact hk hstate

theorem changeProgram_session {s : State} {id : Byte} {k : Fin 32 → Answer × State}
    (hk : ∀ q, (k q).2.session = s.session) : (changeProgram s id k).2.session = s.session := by
  unfold changeProgram
  split
  · rfl
  · split
    · rfl
    · exact hk _

/-! ### Requests to the program store -/

theorem leavesSession_defineProgram : LeavesSession answerDefineProgram := by
  intro s payload
  unfold answerDefineProgram
  split
  · refine changeProgram_session fun q => ?_
    unfold defineProgram
    split_ifs <;> rfl
  · rfl

theorem leavesSession_appendSteps : LeavesSession answerAppendSteps := by
  intro s payload
  unfold answerAppendSteps
  split
  · split
    · refine changeProgram_session fun q => ?_
      unfold appendSteps
      dsimp only
      split
      · rfl
      split
      · rfl
      · split_ifs <;> rfl
    · rfl
  · rfl

theorem leavesSession_sealProgram : LeavesSession answerSealProgram := by
  intro s payload
  unfold answerSealProgram
  split
  · refine changeProgram_session fun q => ?_
    unfold sealProgram
    dsimp only
    split_ifs <;> rfl
  · rfl

theorem leavesSession_discardProgram : LeavesSession answerDiscardProgram := by
  intro s payload
  unfold answerDiscardProgram
  split
  · refine changeProgram_session fun q => ?_
    unfold discardProgram
    split_ifs <;> rfl
  · rfl

theorem leavesSession_deleteProgram : LeavesSession answerDeleteProgram := by
  intro s payload
  unfold answerDeleteProgram
  split
  · refine changeProgram_session fun q => ?_
    unfold deleteProgram
    split_ifs <;> rfl
  · rfl

/-! ### Requests that read -/

theorem leavesSession_ident : LeavesSession answerIdent := by
  intro s payload
  unfold answerIdent
  split <;> rfl

theorem leavesSession_status : LeavesSession answerStatus := by
  intro s payload
  unfold answerStatus
  split
  · split <;> rfl
  · rfl

theorem leavesSession_programInfo : LeavesSession answerProgramInfo := by
  intro s payload
  unfold answerProgramInfo
  split
  · refine inSession_session ?_
    split <;> rfl
  · rfl

theorem leavesSession_programRead : LeavesSession answerProgramRead := by
  intro s payload
  unfold answerProgramRead
  split
  · refine inSession_session ?_
    split <;> rfl
  · rfl

theorem leavesSession_readTime : LeavesSession answerReadTime := by
  intro s payload
  unfold answerReadTime
  split
  · exact inSession_session rfl
  · rfl

theorem leavesSession_routeList : LeavesSession answerRouteList := by
  intro s payload
  unfold answerRouteList
  split
  · exact inSession_session rfl
  · rfl

theorem leavesSession_readCaptures : LeavesSession answerReadCaptures := by
  intro s payload
  unfold answerReadCaptures
  split
  · refine inSession_session ?_
    split_ifs <;> rfl
  · rfl

/-! ### Requests that set -/

theorem leavesSession_restart : LeavesSession answerRestart := by
  intro s payload
  unfold answerRestart
  split <;> rfl

theorem leavesSession_setLine : LeavesSession answerSetLine := by
  intro s payload
  unfold answerSetLine
  split
  · exact inSession_session rfl
  · rfl

theorem leavesSession_routeAdd : LeavesSession answerRouteAdd := by
  intro s payload
  unfold answerRouteAdd
  split
  · refine inSession_session ?_
    split
    · unfold addRoute
      split
      · rfl
      · split <;> rfl
    · rfl
  · rfl

theorem leavesSession_routeRemove : LeavesSession answerRouteRemove := by
  intro s payload
  unfold answerRouteRemove
  split
  · refine inSession_session ?_
    split
    · rfl
    · split <;> rfl
  · rfl

theorem leavesSession_setChannelOptions : LeavesSession answerSetChannelOptions := by
  intro s payload
  unfold answerSetChannelOptions
  split
  · refine inSession_session ?_
    split
    · rfl
    split
    · unfold setOptions
      split_ifs <;> rfl
    · rfl
  · rfl

/-! ### Requests to a channel -/

theorem keepsSession_channelRequest {n : Nat} {k : State → Fin 8 → Answer × State}
    (h : ∀ s c, Submits s (k s c).2) : KeepsSession (channelRequest n k) := by
  intro s payload hs
  unfold channelRequest
  split
  · refine sessionLaw_inSession hs fun _ => ?_
    split
    · exact hs
    · exact (h s _).law hs
  · exact hs

section
variable (s : State) (c : Fin 8)

theorem submits_enableChannel : Submits s (enableChannel s c).2 := by
  refine .of_session ?_
  unfold enableChannel
  dsimp only
  split
  · rfl
  split
  · rfl
  split
  · rfl
  · split <;> rfl

theorem submits_stopChannel : Submits s (stopChannel s c).2 := by
  unfold stopChannel
  split
  · exact .refl s
  · exact .refl s
  · exact .refl s
  · exact submits_flushQueue ..
  · exact .of_session rfl

theorem submits_haltRequest : Submits s (haltRequest s c).2 := by
  unfold haltRequest
  split
  · exact .refl s
  split
  · exact submits_haltChannel s c
  · exact .refl s

theorem submits_installBinding (b : Binding) : Submits s (installBinding s c b) := by
  rw [installBinding_eq]
  exact .of_session (releaseUse_session _ _)

theorem submits_stageBinding (b : Binding) : Submits s (stageBinding s c b) := by
  unfold stageBinding
  dsimp only
  refine Submits.trans
    (t := (releaseUse (raiseUse s b.program) (s.chan c).pending).modChan c fun ch =>
      { ch with pending := some b })
    (.of_session (releaseUse_session _ _)) ?_
  split
  · exact submits_applyPending _ c
  · exact .refl _

theorem submits_bindProgram (b : Binding) : Submits s (bindProgram s c b).2 := by
  unfold bindProgram
  dsimp only
  split
  · exact .refl s
  split
  · exact .refl s
  split
  · exact .refl s
  split
  · exact submits_installBinding s c b
  split
  · exact .refl s
  · exact submits_stageBinding s c b

theorem submits_bindNothing : Submits s (bindNothing s c).2 := by
  unfold bindNothing
  split
  · exact .refl s
  · exact .of_session (releaseUse_session _ _)
  · exact submits_discardPending s c

theorem submits_fireChannel (tag : Half) (presence : Byte) (due : Word) :
    Submits s (fireChannel s c tag presence due).2 := by
  unfold fireChannel
  dsimp only
  split
  · exact .refl s
  split
  · exact .refl s
  split
  · exact .refl s
  split
  · exact .refl s
  split
  · exact .refl s
  · exact submits_createEntry ..

end

theorem keepsSession_bind : KeepsSession answerBind := by
  intro s payload hs
  unfold answerBind
  split
  · refine sessionLaw_inSession hs fun _ => ?_
    split
    · exact hs
    split
    · exact (submits_bindNothing s _).law hs
    split
    · exact hs
    split
    · exact hs
    · exact (submits_bindProgram s _ _).law hs
  · exact hs

theorem keepsSession_fire : KeepsSession answerFire := by
  intro s payload hs
  unfold answerFire
  split
  · refine sessionLaw_inSession hs fun _ => ?_
    split
    · exact hs
    · exact (submits_fireChannel s _ _ _ _).law hs
  · exact hs

/-! ### Requests to the cutoff, the line unit and the capture unit -/

theorem keepsSession_cutoff : KeepsSession answerCutoff := by
  intro s payload hs
  unfold answerCutoff
  split
  · exact (submits_trip s _).law hs
  · exact hs

theorem keepsSession_cutoffRelease : KeepsSession answerCutoffRelease := by
  intro s payload hs
  unfold answerCutoffRelease
  split
  · refine sessionLaw_inSession hs fun _ => ?_
    split
    · exact hs
    split
    · exact hs
    · exact hs.submit _
  · exact hs

theorem keepsSession_timebaseConfig : KeepsSession answerTimebaseConfig := by
  intro s payload hs
  unfold answerTimebaseConfig
  split
  · refine sessionLaw_inSession hs fun _ => ?_
    split
    · exact hs
    dsimp only
    split
    · exact hs
    · exact (submits_applyLineSettings _).law hs
  · exact hs

theorem keepsSession_captureConfig : KeepsSession answerCaptureConfig := by
  intro s payload hs
  have hset : ∀ i mode logEdges filter,
      SessionLaw (configureCapture s i mode logEdges filter).session :=
    fun i mode logEdges filter => by
      unfold configureCapture
      dsimp only
      split
      · exact SessionLaw.acceptEdge (s := s.setInput i _) hs _ _
      · exact hs
  unfold answerCaptureConfig
  split
  · refine sessionLaw_inSession hs fun _ => ?_
    split
    · exact hs
    split
    · exact hset _ _ _ _
    · exact hs
  · exact hs

theorem keepsSession_captureStream : KeepsSession answerCaptureStream := by
  intro s payload hs
  have hset : ∀ on, SessionLaw (setStreaming s on).session := fun on => by
    unfold setStreaming
    dsimp only
    split
    · exact SessionLaw.tryMoves (s := { s with capture := { s.capture with streaming := on } }) hs
    · exact hs
  unfold answerCaptureStream
  split
  · refine sessionLaw_inSession hs fun _ => ?_
    split
    · exact hs
    · exact hset _
  · exact hs

/-! ### Requests to the session and report unit -/

/-- A new session begins under the laws, whatever stood before it (R160). -/
theorem keepsSession_openSession : KeepsSession answerOpenSession := by
  intro s payload hs
  unfold answerOpenSession
  split
  · dsimp only
    split
    · exact hs
    split
    · exact hs
    split
    · exact hs
    · exact sessionLaw_openNew _ _ _ _ _
  · exact hs

theorem keepsSession_closeSession : KeepsSession answerCloseSession := by
  intro s payload hs
  unfold answerCloseSession
  split
  · refine sessionLaw_inSession hs fun _ => ?_
    split
    · exact hs
    · exact sessionLaw_closeSession (quiesce s) .request
    · exact sessionLaw_closeSession s .request
  · exact hs

/-- Reports leave at the head, then the REPORTS_LOST check and the moves may add some (R169). -/
theorem keepsSession_ackReports : KeepsSession answerAckReports := by
  intro s payload hs
  unfold answerAckReports
  split
  · refine sessionLaw_inSession hs fun ho => ?_
    split
    · exact hs
    · next n _ =>
      have hacked := hs.acknowledge ho s.timeBase n
      refine SessionLaw.tryMoves
        (s := s.withSession (s.session.acknowledge s.timeBase n).lossCheck) ?_
      exact hacked.enqueues ho (enqueues_lossCheck _)
  · exact hs

/-! ## Every command -/

/-- Every row that executes requests of one KIND has its answer, and it keeps the laws (R146). -/
theorem exists_lawfulAnswer_of_kind {i : Instr} {k : Byte} (hk : kindOfCommand i = some k) :
    ∃ answer, Answers i answer ∧ KeepsSession answer := by
  cases i with
  | ident => exact ⟨_, ⟨_, rfl, fun _ => rfl⟩, leavesSession_ident.keeps⟩
  | status => exact ⟨_, ⟨_, rfl, fun _ => rfl⟩, leavesSession_status.keeps⟩
  | openSession => exact ⟨_, ⟨_, rfl, fun _ => rfl⟩, keepsSession_openSession⟩
  | closeSession => exact ⟨_, ⟨_, rfl, fun _ => rfl⟩, keepsSession_closeSession⟩
  | ackReports => exact ⟨_, ⟨_, rfl, fun _ => rfl⟩, keepsSession_ackReports⟩
  | restart => exact ⟨_, ⟨_, rfl, fun _ => rfl⟩, leavesSession_restart.keeps⟩
  | cutoff => exact ⟨_, ⟨_, rfl, fun _ => rfl⟩, keepsSession_cutoff⟩
  | cutoffRelease => exact ⟨_, ⟨_, rfl, fun _ => rfl⟩, keepsSession_cutoffRelease⟩
  | setChannelOptions =>
    exact ⟨_, ⟨_, rfl, fun _ => rfl⟩, leavesSession_setChannelOptions.keeps⟩
  | defineProgram => exact ⟨_, ⟨_, rfl, fun _ => rfl⟩, leavesSession_defineProgram.keeps⟩
  | appendSteps => exact ⟨_, ⟨_, rfl, fun _ => rfl⟩, leavesSession_appendSteps.keeps⟩
  | sealProgram => exact ⟨_, ⟨_, rfl, fun _ => rfl⟩, leavesSession_sealProgram.keeps⟩
  | discardProgram => exact ⟨_, ⟨_, rfl, fun _ => rfl⟩, leavesSession_discardProgram.keeps⟩
  | deleteProgram => exact ⟨_, ⟨_, rfl, fun _ => rfl⟩, leavesSession_deleteProgram.keeps⟩
  | programInfo => exact ⟨_, ⟨_, rfl, fun _ => rfl⟩, leavesSession_programInfo.keeps⟩
  | programRead => exact ⟨_, ⟨_, rfl, fun _ => rfl⟩, leavesSession_programRead.keeps⟩
  | bind => exact ⟨_, ⟨_, rfl, fun _ => rfl⟩, keepsSession_bind⟩
  | enable =>
    exact ⟨_, ⟨_, rfl, fun _ => rfl⟩, keepsSession_channelRequest submits_enableChannel⟩
  | stop => exact ⟨_, ⟨_, rfl, fun _ => rfl⟩, keepsSession_channelRequest submits_stopChannel⟩
  | halt => exact ⟨_, ⟨_, rfl, fun _ => rfl⟩, keepsSession_channelRequest submits_haltRequest⟩
  | fire => exact ⟨_, ⟨_, rfl, fun _ => rfl⟩, keepsSession_fire⟩
  | channelStatus =>
    exact ⟨_, ⟨_, rfl, fun _ => rfl⟩, keepsSession_channelRequest fun s _ => .refl s⟩
  | timebaseConfig => exact ⟨_, ⟨_, rfl, fun _ => rfl⟩, keepsSession_timebaseConfig⟩
  | setLine => exact ⟨_, ⟨_, rfl, fun _ => rfl⟩, leavesSession_setLine.keeps⟩
  | readTime => exact ⟨_, ⟨_, rfl, fun _ => rfl⟩, leavesSession_readTime.keeps⟩
  | captureConfig => exact ⟨_, ⟨_, rfl, fun _ => rfl⟩, keepsSession_captureConfig⟩
  | routeAdd => exact ⟨_, ⟨_, rfl, fun _ => rfl⟩, leavesSession_routeAdd.keeps⟩
  | routeRemove => exact ⟨_, ⟨_, rfl, fun _ => rfl⟩, leavesSession_routeRemove.keeps⟩
  | routeList => exact ⟨_, ⟨_, rfl, fun _ => rfl⟩, leavesSession_routeList.keeps⟩
  | readCaptures => exact ⟨_, ⟨_, rfl, fun _ => rfl⟩, leavesSession_readCaptures.keeps⟩
  | captureStream => exact ⟨_, ⟨_, rfl, fun _ => rfl⟩, keepsSession_captureStream⟩
  | _ => cases hk

theorem SessionLaw.concludeRequest {s : State} (hs : SessionLaw s.session) (r : Request)
    (f : Frame) : SessionLaw (concludeRequest r f s).session := by
  rw [concludeRequest_eq_arbitrateEither]
  exact SessionLaw.arbitrateEither (s := queueReply r f s) hs

theorem SessionLaw.serveRequest {s : State} {k : Byte}
    {answer : State → List Byte → Answer × State} (hs : SessionLaw s.session)
    (h : KeepsSession answer) : SessionLaw (serveRequest k answer s).session := by
  unfold Machine.serveRequest
  split
  · exact hs
  · next r s0 htake =>
    obtain ⟨-, rfl⟩ := serves_of_takeRequest htake
    exact (h (popRequest s) r.payload hs).concludeRequest _ _

/-- The outcome is a next state, and the laws of the session and report unit hold there. -/
def SessionNext (o : Host.Outcome State Fault Refusal) : Prop :=
  ∃ t, o = .next t ∧ SessionLaw t.session

/-- Where a happening is not there, nothing changes (log 2). -/
theorem SessionLaw.happening {s t : State} {p : Prop} [Decidable p] (hs : SessionLaw s.session)
    (h : p → SessionLaw t.session) : SessionNext (.next (if p then t else s)) :=
  ⟨_, rfl, by split; exacts [h ‹p›, hs]⟩

/-- A happening that submits reports, at whose end the arbiter chooses (R152). -/
theorem SessionLaw.event {s t : State} (hs : SessionLaw s.session) (h : Submits s t) :
    SessionLaw (Machine.arbitrate t).session := (h.law hs).arbitrate

/-- Every command has a next state, and it keeps the laws of the session and report unit. -/
theorem SessionLaw.exec {s : State} (hs : SessionLaw s.session) (i : Instr) :
    SessionNext (exec i s) := by
  cases hkind : kindOfCommand i with
  | some k =>
    obtain ⟨answer, ⟨k, -, hexec⟩, hkeeps⟩ := exists_lawfulAnswer_of_kind hkind
    exact ⟨_, hexec s, hs.serveRequest hkeeps⟩
  | none =>
  cases i with
  | reject =>
    refine ⟨_, rfl, ?_⟩
    split
    · exact hs
    · next htake =>
      obtain ⟨-, rfl⟩ := serves_of_takeRequest htake
      exact SessionLaw.concludeRequest (s := popRequest s) hs _ _
  | frameComplete b => exact hs.happening fun _ => hs.receive b
  | invalidLenByte b => exact hs.happening fun _ => hs.receive b
  | receivedByte b => exact hs.happening fun _ => hs.receive b
  | interByteGapTimeout => exact hs.happening fun _ => hs
  | transmissionEnd =>
    refine ⟨_, rfl, ?_⟩
    split
    · exact hs
    split
    · exact hs.endTransmission _
    · exact hs
  | hardReset cause baud1 baud0 =>
    exact hs.happening fun _ =>
      sessionLaw_of_closed rfl fun _ => ⟨rfl, rfl, rfl, rfl, rfl, rfl, rfl⟩
  | startUpEnd => exact hs.happening fun _ => hs.endStartUp.arbitrate
  | lineRise => exact hs.happening fun _ => hs.event (submits_riseLine s)
  | lineFall => exact hs.happening fun _ => hs
  | lineStallDetected => exact hs.happening fun _ => hs.event (submits_stallLine s)
  | captureEdge i =>
    refine ⟨_, rfl, ?_⟩
    split
    · exact (hs.acceptEdge i _).arbitrate
    · exact hs
  | cutoffNAssertion =>
    exact hs.happening fun _ => hs.event (Submits.trans
      (t := { s with cutoff := { s.cutoff with level := .low, candidate := none } })
      (.of_session rfl) (submits_trip _ _))
  | cutoffNDeassertion => exact hs.happening fun _ => hs
  | silenceExpiry =>
    exact hs.happening fun _ => (sessionLaw_closeSession (trip s .silence) .silence).arbitrate
  | resendExpiry =>
    exact hs.happening fun hexpired => SessionLaw.arbitrate
      (s := s.withSession { s.session with reports := s.session.reports.map toResend
                                           resendTimer := none })
      (hs.resend (hs.opened_of_expired hexpired))
  | headEntryDue c => exact hs.happening fun _ => hs.event (submits_handleDue s c)
  | stepEnd c =>
    refine ⟨_, rfl, ?_⟩
    split
    · split
      · exact hs.event (submits_endStep ..)
      · exact hs
    · exact hs
  | holdUntilTimeout c =>
    refine ⟨_, rfl, ?_⟩
    split
    · split
      · exact hs.event ((submits_submit ..).trans (submits_endStep ..))
      · exact hs
    · exact hs
  | holdUntilEdge c =>
    refine ⟨_, rfl, ?_⟩
    split
    · exact hs
    · exact hs.event (submits_takeOffer ..)
  | routeTrigger c =>
    refine ⟨_, rfl, ?_⟩
    split
    · exact hs
    · exact hs.event (submits_takeTrigger ..)
  | stallNotice c =>
    refine ⟨_, rfl, ?_⟩
    split
    · exact hs
    · exact hs.event (submits_actOnStall ..)
  | linePresetTaken c =>
    refine ⟨_, rfl, ?_⟩
    split
    · exact hs
    · exact hs
  | entryOverdueDiscard c => exact hs.happening fun _ => hs.event (submits_dropHeads ..)
  | timeBaseTick pins => exact ⟨_, rfl, by rwa [tick_session]⟩
  | _ => cases hkind

/-- Settles O60: every command keeps the laws of the session and report unit. -/
theorem stepKeepsReportQueueLaws : Obligations.StepKeepsReportQueueLaws := by
  intro s t hs hstep
  unfold step at hstep
  split at hstep
  · cases hstep
    exact hs
  · next i rest _ =>
    obtain ⟨u, hu, hlaw⟩ := SessionLaw.exec (s := { s with pending := rest }) hs i
    rw [hu] at hstep
    cases hstep
    exact hlaw

end Sys2Proof.Machine

namespace Sys2Proof.Machine

/-! ## ACK_REPORTS -/

section
variable {n : Half}

/-- A sequence that no report has, or a NEW one, acknowledges nothing (R169). -/
theorem ackCount_eq_none {reports : List Report}
    (h : ∀ x ∈ reports, x.sequence = n → x.state = .new) : ackCount n reports = none := by
  induction reports with
  | nil => rfl
  | cons x rest ih =>
    obtain ⟨hx, hrest⟩ := List.forall_mem_cons.mp h
    rw [ackCount, ih hrest]
    split
    · next hname => simp [Report.unacknowledged, hx hname]
    · rfl

/-- A sequence that a sent report has first acknowledges it and every report ahead of it (R169). -/
theorem ackCount_of_split {before after : List Report} {x : Report} (hx : x.sequence = n)
    (hsent : x.state ≠ .new) (hb : ∀ y ∈ before, y.sequence ≠ n) :
    ackCount n (before ++ x :: after) = some (before.length + 1) := by
  induction before with
  | nil => simp [ackCount, hx, Report.unacknowledged, hsent]
  | cons y before ih =>
    obtain ⟨hy, hb⟩ := List.forall_mem_cons.mp hb
    rw [List.cons_append, ackCount, if_neg hy, ih hb]
    rfl

variable {s : State}

theorem answerAckReports_of_none (ho : s.session.state = .opened)
    (h : ackCount n s.session.reports = none) :
    answerAckReports s (le16 n) = (ackAnswer s .badValue 0, s) := by
  rw [le16, answerAckReports, inSession_of_opened ho, read16_le16, h]

theorem answerAckReports_of_some {k : Nat} (ho : s.session.state = .opened)
    (h : ackCount n s.session.reports = some k) :
    answerAckReports s (le16 n) = (ackAnswer (acknowledge s k) .ok k, acknowledge s k) := by
  rw [le16, answerAckReports, inSession_of_opened ho, read16_le16, h]

end

theorem sentCount_eq_zero_iff (se : Session) :
    se.sentCount = 0 ↔ ¬ ∃ y ∈ se.reports, y.state = .sent := by
  simp [Session.sentCount, List.countP_eq_zero]

/-- The acknowledged reports leave, and the resend timer is started anew when a SENT report remains
and stopped when none does (R169, R170). -/
theorem acknowledge_of_split {se : Session} {before after : List Report} {x : Report}
    (hsplit : se.reports = before ++ x :: after) (now : Word) :
    se.acknowledge now (before.length + 1) =
      { se with reports := after
                resendTimer := if ∃ y ∈ after, y.state = .sent then se.startResend now
                               else none } := by
  have hdrop : se.reports.drop (before.length + 1) = after := by simp [hsplit]
  have hzero := sentCount_eq_zero_iff { se with reports := after }
  unfold Session.acknowledge
  simp only [hdrop, hzero, ite_not]
  rfl

theorem lossCheck_of_noLoss {se : Session} (h : se.lost = LostCounts.zero) :
    se.lossCheck = se := if_neg fun hloss => hloss.1 h

/-- Settles O34: the count by `ackCount_of_split`, the session by `acknowledge_of_split`. -/
theorem ackRemovesAHeadRun : Obligations.AckRemovesAHeadRun := by
  intro s r n hs hk ho hp
  have hi : Answers .ackReports answerAckReports := ⟨_, rfl, fun _ => rfl⟩
  have hkind := congrArg some hk.symm
  refine ⟨fun hnew _ => hi.executed_of_payload hs hkind hp
    (answerAckReports_of_none (s := popRequest s) ho (ackCount_eq_none hnew)), ?_⟩
  intro before x after hsplit hx hsent hb se hse
  have hcount : ackCount n s.session.reports = some (before.length + 1) := by
    rw [hsplit, ackCount_of_split hx hsent hb]
  have hacked : s.session.acknowledge s.timeBase (before.length + 1) = se := by
    rw [acknowledge_of_split hsplit, hse]
    rfl
  have hack : acknowledge (popRequest s) (before.length + 1) =
      tryMoves ((popRequest s).withSession se.lossCheck) := by
    rw [← hacked]
    rfl
  have hrun : ∀ t, t = tryMoves ((popRequest s).withSession se.lossCheck) →
      Executed .ackReports s r .ok
        [byteOf (before.length + 1), byteOf t.session.reports.length,
          byteOf t.session.unacknowledged] t := by
    rintro _ rfl
    refine hi.executed_of_payload hs hkind hp
      ((answerAckReports_of_some (s := popRequest s) ho hcount).trans ?_)
    rw [hack]
    rfl
  refine ⟨hrun, fun hlost hoff => ?_⟩
  have hstill : tryMoves ((popRequest s).withSession se.lossCheck) =
      (popRequest s).withSession se := by
    rw [lossCheck_of_noLoss (by rw [hse]; exact hlost)]
    exact tryMoves_of_off hoff
  have hreports : after = se.reports := by rw [hse]
  rw [hreports]
  exact hrun _ hstill.symm

end Sys2Proof.Machine

namespace Sys2Proof.Machine

/-! ## OPEN_SESSION -/

theorem offOrWithin_iff (t : Half) (lo hi : Nat) :
    offOrWithin t lo hi = true ↔ t = 0 ∨ (lo ≤ t.toNat ∧ t.toNat ≤ hi) := by
  simp [offOrWithin]

section
variable (s : State) {silence resend : Half} {m : Byte}

/-- A time out of range, or a mask bit that names no class, is refused (R160, R175). -/
theorem answerOpenSession_of_out
    (h : ¬ (silence = 0 ∨ (50 ≤ silence.toNat ∧ silence.toNat ≤ 60000)) ∨
      ¬ (resend = 0 ∨ (10 ≤ resend.toNat ∧ resend.toNat ≤ 5000)) ∨ 32 ≤ m.toNat) :
    answerOpenSession s (le16 silence ++ le16 resend ++ [m]) = (refusal .badValue 2, s) := by
  show answerOpenSession s [_, _, _, _, m] = _
  rw [answerOpenSession, read16_le16, read16_le16]
  simp only [← offOrWithin_iff] at h
  dsimp only
  split
  · rfl
  split
  · rfl
  · next hsilence hresend =>
    have hm : ¬ m.toNat < 32 := by simp_all
    rw [maskOf, if_neg hm]

/-- With its fields in range OPEN_SESSION opens the session they describe (R160). -/
theorem answerOpenSession_of_fields
    (hsilence : silence = 0 ∨ (50 ≤ silence.toNat ∧ silence.toNat ≤ 60000))
    (hresend : resend = 0 ∨ (10 ≤ resend.toNat ∧ resend.toNat ≤ 5000)) {mask : ReportMask}
    (hmask : maskOf m = some mask) :
    answerOpenSession s (le16 silence ++ le16 resend ++ [m]) =
      ({ result := .ok
         fields := [(openSession s silence resend mask).session.number,
                    if s.session.state = .opened then s.session.number else 0] },
       openSession s silence resend mask) := by
  show answerOpenSession s [_, _, _, _, m] = _
  rw [answerOpenSession, read16_le16, read16_le16]
  rw [← offOrWithin_iff] at hsilence hresend
  simp only [hsilence, hresend, hmask]
  rfl

end

/-- All that OPEN_SESSION with its fields in range does: an OPEN session is closed with cause REOPEN,
and the next one begins (R159, R160). -/
theorem openSession_spec (s t : State) (silence resend : Half) (mask : ReportMask)
    (ht : t = openSession s silence resend mask) :
    t = { s with
          store := t.store
          capture := t.capture
          session := ({ s.session with
            lastClose := if s.session.state = .opened then .reopen
                         else s.session.lastClose } : Session).openNew
              s.timeBase silence resend mask
          link := { s.link with cache := [] } } ∧
      (s.session.state = .opened →
        t.capture = { s.capture with streaming := false } ∧ OpenDiscarded s t) ∧
      (s.session.state = .closed → t.capture = s.capture ∧ t.store = s.store) := by
  subst ht
  unfold openSession
  cases hstate : s.session.state with
  | closed => exact ⟨rfl, nofun, fun _ => ⟨rfl, rfl⟩⟩
  | opened =>
    obtain ⟨hd, heq⟩ := closeSession_spec s _ .reopen rfl
    simp only [if_true]
    generalize closeSession s .reopen = u at hd heq
    have hcapture : u.capture = { s.capture with streaming := false } := by rw [heq]
    exact ⟨by rw [heq]; rfl, fun _ => ⟨hcapture, hd⟩, nofun⟩

/-- Settles O32: the checks of the answer, then `openSession_spec`. -/
theorem openSessionStartsTheNext : Obligations.OpenSessionStartsTheNext := by
  intro s r silence resend m hs hk hp
  have hi : Answers .openSession answerOpenSession := ⟨_, rfl, fun _ => rfl⟩
  have hkind := congrArg some hk.symm
  refine ⟨fun hout => hi.executed_of_payload hs hkind hp (answerOpenSession_of_out _ hout), ?_⟩
  intro hsilence hresend hm number hnumber
  have hmask : maskOf m = some _ := if_pos hm
  have hanswer := answerOpenSession_of_fields (popRequest s) hsilence hresend hmask
  obtain ⟨heq, hopened, hclosed⟩ := openSession_spec (popRequest s) _ silence resend _ rfl
  generalize openSession (popRequest s) silence resend _ = t at hanswer heq hopened hclosed
  have hnum : t.session.number = number := by rw [heq, hnumber]; rfl
  rw [hnum] at hanswer
  refine ⟨t, hi.executed_of_payload hs hkind hp hanswer, ?_, by rw [heq], by rw [heq]; rfl,
    by rw [heq]; rfl, by rw [heq]; rfl, by rw [heq]; rfl, by rw [heq]; rfl, by rw [heq]; rfl,
    hopened, hclosed⟩
  rw [heq, hnumber]
  rfl

end Sys2Proof.Machine

namespace Sys2Proof.Machine

/-! ## Submissions judged -/

/-- The KIND of a report tells its class (R163, section 10.6). -/
theorem reportClass_of_kind (b : ReportBody) :
    (b.kind = 0xC1 → b.reportClass = .firing) ∧ (b.kind = 0xC2 → b.reportClass = .missed) ∧
      (b.kind = 0xC3 → b.reportClass = .step) ∧
      (b.kind = 0xC4 ∨ b.kind = 0xC5 → b.reportClass = .channel) ∧
      (b.kind = 0xC6 ∨ b.kind = 0xC9 ∨ b.kind = 0xCA → b.reportClass = .urgent) ∧
      (b.kind = 0xC7 → b.reportClass = .line) := by
  cases b <;> simp [ReportBody.kind, ReportBody.reportClass]

theorem missedKey_of_reportClass {b : ReportBody} (h : b.reportClass ≠ .missed) :
    b.missedKey = none := by
  cases b with
  | missed r => exact absurd rfl h
  | _ => rfl

/-- The two counts add up, to 65,535 at most (R166). -/
theorem satAdd_eq_min (a b : Half) :
    a.satAdd b = BitVec.ofNat 16 (min 65535 (a.toNat + b.toNat)) := by
  unfold Half.satAdd
  split
  · next h => rw [min_eq_left h]; rfl
  · next h =>
    rw [min_eq_right (by omega), BitVec.ofNat_add, BitVec.ofNat_toNat, BitVec.ofNat_toNat]
    simp

section
variable {se : Session} {b : ReportBody}

theorem judge_of_urgent (h : b.reportClass = .urgent) : se.judge b = se.submitUrgent b := by
  unfold Session.judge
  split
  · cases h
  · rw [if_pos h]

/-- An ordinary report without a twin takes the ordinary admission (R165). -/
theorem judge_of_fresh (hclass : b.reportClass ≠ .urgent) (hfresh : Fresh b se) :
    se.judge b = se.submitOrdinary b := by
  unfold Session.judge
  split
  · rw [coalesceMissed_eq_none (hfresh _ rfl)]
  · rw [if_neg hclass]

/-- A MISSED coalesces into the first NEW MISSED of its channel and cause (R166). -/
theorem judge_of_twin {x y : MissedReport} {q : Report} {before after : List Report}
    (hsplit : se.reports = before ++ q :: after) (hbody : q.body = .missed y)
    (hq : q.newKey = some (x.channel, x.cause))
    (hb : ∀ v ∈ before, v.newKey ≠ some (x.channel, x.cause)) :
    se.judge (.missed x) = { se with reports := before ++ q.coalesced y x :: after } := by
  rw [Session.judge, hsplit, coalesceMissed_of_split hbody hq hb]

theorem length_enter (se : Session) (b : ReportBody) :
    (se.enter b).reports.length = se.reports.length + 1 := List.length_append

/-- Without room for it an ordinary report is counted lost in its class (R165). -/
theorem submitOrdinary_of_full (h : 32 - se.reports.length < 3) :
    se.submitOrdinary b = { se with lost := se.lost.count b.reportClass } := by
  have hroom : ¬ Config.ordinaryRoom ≤ se.freeSlots := Nat.not_le.mpr h
  have hcheck : se.lossCheck = se := if_neg fun hloss => hroom hloss.2
  rw [Session.submitOrdinary, hcheck]
  exact if_neg hroom

/-- With nothing lost before it an ordinary report enters at three free slots (R165). -/
theorem submitOrdinary_of_noLoss (hlost : se.lost = LostCounts.zero)
    (h : 3 ≤ 32 - se.reports.length) : se.submitOrdinary b = se.enter b := by
  rw [Session.submitOrdinary, lossCheck_of_noLoss hlost]
  exact if_pos h

/-- The REPORTS_LOST check of a session with a loss waiting and three free slots (R167). -/
theorem lossCheck_of_loss (hlost : se.lost ≠ LostCounts.zero) (h : 3 ≤ 32 - se.reports.length) :
    se.lossCheck = { se.enter (.reportsLost se.lost) with lost := LostCounts.zero } :=
  if_pos ⟨hlost, h⟩

/-- With a loss waiting the counts take the first of four free slots and the report the second
(R165, R167). -/
theorem submitOrdinary_of_loss (hlost : se.lost ≠ LostCounts.zero)
    (h : 4 ≤ 32 - se.reports.length) :
    se.submitOrdinary b =
      { se with
        reports := se.reports ++
          [{ sequence := se.nextSequence, body := .reportsLost se.lost, session := se.number
             state := .new },
           { sequence := se.nextSequence + 1, body := b, session := se.number, state := .new }]
        nextSequence := se.nextSequence + 2
        lost := LostCounts.zero } := by
  have hroom : 3 ≤ 32 - (se.reports.length + 1) := by omega
  have hnext : se.nextSequence + 1 + 1 = se.nextSequence + 2 := by rw [BitVec.add_assoc]; rfl
  rw [Session.submitOrdinary, lossCheck_of_loss hlost (by omega)]
  refine (if_pos ?_).trans ?_
  · rwa [← length_enter se (.reportsLost se.lost)] at hroom
  · simp only [enter_eq, List.append_assoc, List.cons_append, List.nil_append, hnext]

/-- With a loss waiting and three free slots the counts take one of them, which leaves too few for
the report (R165, R167). -/
theorem submitOrdinary_of_lossAlone (hlost : se.lost ≠ LostCounts.zero)
    (h : 32 - se.reports.length = 3) :
    se.submitOrdinary b =
      { se with
        reports := se.reports ++
          [{ sequence := se.nextSequence, body := .reportsLost se.lost, session := se.number
             state := .new }]
        nextSequence := se.nextSequence + 1
        lost := LostCounts.zero.count b.reportClass } := by
  have hfull : ¬ 3 ≤ 32 - (se.reports.length + 1) := by omega
  rw [Session.submitOrdinary, lossCheck_of_loss hlost (by omega)]
  rw [← length_enter se (.reportsLost se.lost)] at hfull
  exact if_neg hfull

end

/-- What makes an ordinary report of the body under the mask: its class is not urgent and passes the
mask, it has no twin in the queue, and `up` counts one more loss of its class (R163, R165, R166). -/
structure Ordinary (se : Session) (m : ReportMask) (b : ReportBody)
    (up : LostCounts → LostCounts) : Prop where
  notUrgent : b.reportClass ≠ .urgent
  allowed : m.allows b.reportClass = true
  fresh : Fresh b se
  count : ∀ l : LostCounts, l.count b.reportClass = up l

/-- A report that is no MISSED is ordinary by its class alone. -/
theorem ordinary_of_class {se : Session} {m : ReportMask} {b : ReportBody}
    {up : LostCounts → LostCounts} {k : ReportClass} (hclass : b.reportClass = k)
    (hurgent : k ≠ .urgent) (hmissed : k ≠ .missed) (hallowed : m.allows k = true)
    (hcount : ∀ l : LostCounts, l.count k = up l) : Ordinary se m b up := by
  subst hclass
  exact ⟨hurgent, hallowed, fresh_of_notMissed (missedKey_of_reportClass hmissed) se, hcount⟩

theorem submit_of_ordinary {se : Session} {m : ReportMask} {b : ReportBody}
    {up : LostCounts → LostCounts} (ho : se.state = .opened) (hm : se.mask = some m)
    (h : Ordinary se m b up) : se.submit b = se.submitOrdinary b := by
  rw [submit_of_opened ho hm, if_pos h.allowed, judge_of_fresh h.notUrgent h.fresh]

/-- Settles O53: the session and the mask, the twin, then the urgent and the ordinary admission. -/
theorem submissionIsJudged : Obligations.SubmissionIsJudged := by
  intro se body
  obtain ⟨hfiring, hmissed, hstep, hchannel, hurgent, hline⟩ := reportClass_of_kind body
  refine ⟨submit_of_closed, fun m ho hm free hfree => ⟨fun hmasked => ?masked, ?twin,
    fun hkind => ?urgent, fun up hkind => ?ordinary⟩⟩
  case masked =>
    have hnot : m.allows body.reportClass = false := by
      rcases hmasked with ⟨hk, hoff⟩ | ⟨hk, hoff⟩ | ⟨hk, hoff⟩ | ⟨hk, hoff⟩ | ⟨hk, hoff⟩
      · rw [hfiring hk]; exact hoff
      · rw [hmissed hk]; exact hoff
      · rw [hstep hk]; exact hoff
      · rw [hchannel hk]; exact hoff
      · rw [hline hk]; exact hoff
    rw [submit_of_opened ho hm, hnot]
    rfl
  case twin =>
    rintro x z before q y after hallowed rfl hsplit hbody hnew hc hcause hb rfl
    have hq : q.newKey = some (x.channel, x.cause) :=
      newKey_eq_some_iff.mpr ⟨y, hbody, hnew, hc, hcause⟩
    have hbefore : ∀ v ∈ before, v.newKey ≠ some (x.channel, x.cause) := fun v hv hkey => by
      obtain ⟨w, hw, hkey⟩ := newKey_eq_some_iff.mp hkey
      exact hb v hv w hw hkey
    rw [submit_of_opened ho hm, judge_of_twin hsplit hbody hq hbefore, Report.coalesced,
      coalesceInto, satAdd_eq_min]
    exact if_pos hallowed
  case urgent =>
    have hclass := hurgent hkind
    rw [submit_of_opened ho hm, hclass, judge_of_urgent hclass, Session.submitUrgent, hclass,
      hfree, ← satSucc_eq_ite]
    rfl
  case ordinary =>
    have h : Ordinary se m body up := by
      rcases hkind with ⟨hk, hon, rfl⟩ | ⟨⟨x, rfl, htwin⟩, hon, rfl⟩ | ⟨hk, hon, rfl⟩ |
        ⟨hk, hon, rfl⟩ | ⟨hk, hon, rfl⟩
      · exact ordinary_of_class (hfiring hk) nofun nofun hon fun _ => rfl
      · refine ⟨nofun, hon, fun k hk q hq hkey => ?_, fun _ => rfl⟩
        cases hk
        obtain ⟨y, hy, hkey⟩ := newKey_eq_some_iff.mp hkey
        exact htwin q hq y hy hkey
      · exact ordinary_of_class (hstep hk) nofun nofun hon fun _ => rfl
      · exact ordinary_of_class (hchannel hk) nofun nofun hon fun _ => rfl
      · exact ordinary_of_class (hline hk) nofun nofun hon fun _ => rfl
    subst hfree
    rw [submit_of_ordinary ho hm h, ← h.count, ← h.count]
    exact ⟨submitOrdinary_of_noLoss, submitOrdinary_of_loss, submitOrdinary_of_lossAlone,
      submitOrdinary_of_full⟩

end Sys2Proof.Machine

namespace Sys2Proof.Machine

/-! ## STATUS -/

theorem sealedCount_eq_length (s : State) :
    sealedCount s = (allPrograms.filter fun q => (s.prog q).state == .sealed).length := by
  rw [sealedCount, List.countP_eq_length_filter]
  rfl

theorem bitSet_singleton (b : Bool) : bitSet [b] = if b then 1 else 0 := by
  cases b <;> rfl

/-- A clear field of 2 or more is refused (R172, R175). -/
theorem answerStatus_of_out (s : State) {clear : Byte} (h : 2 ≤ clear.toNat) :
    answerStatus s [clear] = (refusal .badValue 36, s) := by
  obtain ⟨hnone, -⟩ := twoValues_of_large h
  rw [answerStatus, hnone]

/-- The fields are told as they stand, and the counters are cleared when asked (R172). -/
theorem answerStatus_of_clear (s : State) (clear : Bool) :
    answerStatus s [boolCode clear] = (statusAnswer s, if clear then clearCounters s else s) := by
  rw [answerStatus, boolOf_code]
  cases clear <;> rfl

/-- Settles O8: the fields in their order, then the counters. -/
theorem statusTellsAndClears : Obligations.StatusTellsAndClears := by
  intro s r hs hk
  have hi : Answers .status answerStatus := ⟨_, rfl, fun _ => rfl⟩
  have hkind := congrArg some hk.symm
  refine ⟨fun clear hp hclear => hi.executed_of_payload hs hkind hp (answerStatus_of_out _ hclear),
    fun clear hp => hi.executed_of_payload hs hkind hp ?_⟩
  refine (answerStatus_of_clear (popRequest s) clear).trans (Prod.ext ?_ rfl)
  have hpop : openProgram (popRequest s) = openProgram s := rfl
  rw [statusAnswer, sealedCount_eq_length, bitSet_singleton, LostCounts.bytes, hpop]
  simp only [List.append_assoc]
  cases openProgram s <;> rfl

end Sys2Proof.Machine

namespace Sys2Proof.Machine

/-! ## The front command -/

/-- Settles O1: the queue is not empty, so the step takes the branch that runs its front. -/
theorem stepRunsFrontCommand : Obligations.StepRunsFrontCommand := by
  intro c s
  unfold step
  rfl

/-! ## Commands whose happening is not there -/

/-- A guarded event whose guard fails leaves the state as it is (log 2). -/
theorem next_ite_of_not {s t : State} {p : Prop} [Decidable p] (h : ¬ p) :
    (.next (if p then t else s) : Host.Outcome State Fault Refusal) = .next s :=
  congrArg _ (if_neg h)

/-- The happening of a request row is a head request of its KIND that may be executed (R146). -/
theorem happening_of_kind {i : Instr} {k : Byte} (hk : kindOfCommand i = some k) (s : State) :
    happening i s = servable (· == k) s := by
  have hmine : (fun x => kindOfCommand i == some x) = (· == k) := by
    funext x
    rw [hk, Option.some_beq_some, BEq.comm]
  rw [← hmine]
  cases i with
  | ident | status | openSession | closeSession | ackReports | restart | cutoff
  | cutoffRelease | setChannelOptions | defineProgram | appendSteps | sealProgram
  | discardProgram | deleteProgram | programInfo | programRead | bind | enable | stop
  | halt | fire | channelStatus | timebaseConfig | setLine | readTime | captureConfig
  | routeAdd | routeRemove | routeList | readCaptures | captureStream => rfl
  | _ => cases hk

theorem takeRequest_of_not_servable {mine : Byte → Bool} {s : State}
    (h : servable mine s = false) : takeRequest mine s = none :=
  Option.isNone_iff_eq_none.mp (Option.isSome_eq_false_iff.mp h)

theorem exec_reject_of_not_servable {s : State} (h : servable namesNoRequest s = false) :
    exec .reject s = .next s := by
  show execReject s = _
  rw [execReject, takeRequest_of_not_servable h]

theorem exec_transmissionEnd_of_idle {s : State} (h : s.link.transmitter = .idle) :
    exec .transmissionEnd s = .next s := by
  show execTransmissionEnd s = _
  rw [execTransmissionEnd, h]

theorem exec_captureEdge_of_none {s : State} {i : Fin 4} (h : inputChange (s.input i) = none) :
    exec (.captureEdge i) s = .next s := by
  show execCaptureEdge i s = _
  rw [execCaptureEdge, h]

section
variable {s : State} {c : Fin 8}

/-- STEP_END is for a step without a watch (R32). -/
theorem exec_stepEnd_of_not
    (h : (stepEndReached s c).any (fun x => x.2.watch.isNone) = false) :
    exec (.stepEnd c) s = .next s := by
  show execStepEnd c s = _
  rw [execStepEnd]
  cases hreached : stepEndReached s c with
  | none => rfl
  | some x =>
    rw [hreached, Option.any_some] at h
    exact next_ite_of_not (Bool.eq_false_iff.mp h)

/-- HOLD_UNTIL_TIMEOUT is for a step with a watch (R37). -/
theorem exec_holdUntilTimeout_of_not
    (h : (stepEndReached s c).any (fun x => x.2.watch.isSome) = false) :
    exec (.holdUntilTimeout c) s = .next s := by
  show execHoldUntilTimeout c s = _
  rw [execHoldUntilTimeout]
  cases hreached : stepEndReached s c with
  | none => rfl
  | some x =>
    rw [hreached, Option.any_some] at h
    exact next_ite_of_not (Bool.eq_false_iff.mp h)

theorem exec_holdUntilEdge_of_nil (h : (s.chan c).offers = []) :
    exec (.holdUntilEdge c) s = .next s := by
  show execHoldUntilEdge c s = _
  rw [execHoldUntilEdge, h]

theorem exec_routeTrigger_of_nil (h : (s.chan c).triggers = []) :
    exec (.routeTrigger c) s = .next s := by
  show execRouteTrigger c s = _
  rw [execRouteTrigger, h]

theorem exec_linePresetTaken_of_nil (h : (s.chan c).presets = []) :
    exec (.linePresetTaken c) s = .next s := by
  show execLinePresetTaken c s = _
  rw [execLinePresetTaken, h]

end

theorem eq_nil_of_not_isEmpty_eq_false {α : Type} {l : List α} (h : (!l.isEmpty) = false) :
    l = [] := List.isEmpty_iff.mp (by simpa using h)

/-- Settles O4: a request row serves no request, and every other row meets its guard, which is the
negation of its happening, or the empty list it takes from. -/
theorem noHappeningNoChange : Obligations.NoHappeningNoChange := by
  intro i s h
  cases hkind : kindOfCommand i with
  | some k =>
    obtain ⟨answer, ⟨k, hk, hexec⟩, -⟩ := exists_answer_of_kind hkind
    rw [happening_of_kind hk] at h
    rw [hexec, serveRequest_of_none (takeRequest_of_not_servable h)]
  | none =>
  cases i with
  | reject => exact exec_reject_of_not_servable h
  | frameComplete b | invalidLenByte b | interByteGapTimeout | receivedByte b
  | hardReset cause baud1 baud0 | startUpEnd | lineStallDetected | silenceExpiry | resendExpiry
  | entryOverdueDiscard c | headEntryDue c =>
    exact next_ite_of_not (Bool.eq_false_iff.mp h)
  | transmissionEnd =>
    cases ht : s.link.transmitter with
    | idle => exact exec_transmissionEnd_of_idle ht
    | sending f left =>
      simp only [happening, ht, decide_eq_false_iff_not, Int.not_le] at h
      exact exec_transmissionEnd_of_left ht h
  | lineRise | lineFall | cutoffNAssertion | cutoffNDeassertion =>
    exact next_ite_of_not (beq_eq_false_iff_ne.mp h)
  | captureEdge i =>
    exact exec_captureEdge_of_none (Option.isNone_iff_eq_none.mp (Option.isSome_eq_false_iff.mp h))
  | stepEnd c => exact exec_stepEnd_of_not h
  | holdUntilTimeout c => exact exec_holdUntilTimeout_of_not h
  | holdUntilEdge c => exact exec_holdUntilEdge_of_nil (eq_nil_of_not_isEmpty_eq_false h)
  | routeTrigger c => exact exec_routeTrigger_of_nil (eq_nil_of_not_isEmpty_eq_false h)
  | stallNotice c => exact congrArg _ (if_pos (bne_eq_false_iff_eq.mp h))
  | linePresetTaken c => exact exec_linePresetTaken_of_nil (eq_nil_of_not_isEmpty_eq_false h)
  | timeBaseTick pins => cases h
  | _ => cases hkind

end Sys2Proof.Machine
